-- ==== Sys2Proof/Word.lean ====
section
/-!
DEFINITION. The machine's word types. Every value is unsigned (00_scope.md section 6); widening stands in
Machine/Operands.lean.
-/

namespace Sys2Proof

/-- An 8-bit value: a general register, a timer, a byte of memory (00_scope.md R5). -/
abbrev Byte := BitVec 8

/-- A 16-bit value: I, pc, a return address, an instruction word (00_scope.md R5, R6). -/
abbrev Word := BitVec 16

/-- The 12-bit immediate `nnn` (30_encoding.md R52). -/
abbrev Imm12 := BitVec 12

/-- The 4-bit immediate `n` (30_encoding.md R52). -/
abbrev Imm4 := BitVec 4

end Sys2Proof
end

