-- ==== Sys2Proof/Config.lean ====
section
/-!
DEFINITION. The parameters of 00_scope.md section 4, and the one value the spec leaves open.
The font table is a constant too, but stands in Machine/Ops.lean.
-/

namespace Sys2Proof.Config

/-- `MEM_SIZE`: bytes of memory; addresses are reduced modulo this number (R4). -/
def memSize : Nat := 4096

/-- `STACK_DEPTH`: entries of the call stack (R6). -/
def stackDepth : Nat := 16

/-- `FONT_BASE`: where `reset` installs the font (R8). -/
def fontBase : Nat := 0x050

/-- `FONT_BYTES`: the font's length (R8). -/
def fontBytes : Nat := 80

/-- `PROG_BASE`: where programs are loaded, and pc after reset (R8). -/
def progBase : Nat := 0x200

/-- `ROM_MAX`: the largest ROM in bytes (R8). -/
def romMax : Nat := 3584

/-- FREE VALUE: `random_byte()`, the byte of the draw numbered `draw` (counted since power-on) of a generator seeded
with `seed` (10_state.md R28, 41_alu.md R85, 92_eei_decisions.md D16). It has no body, so nothing can be proved about
its values: a claim that mentions it holds for every sequence of draws. Log entry 3. -/
opaque randomByte (seed draw : Nat) : Byte

end Sys2Proof.Config
end

