-- ==== Sys2Proof/Syntax.lean ====
section
/-!
DEFINITION. The 34 instructions, one constructor per row of the opcode map (30_encoding.md R56), in its order.
Operands have the width their field has in the word (R52, R53), so every term of `Instr` is an instruction.
-/

namespace Sys2Proof

/-- A general register's number, 0 to 15: V0 to VF (10_state.md R14). -/
abbrev RegNum := Fin 16

/-- The instructions of 30_encoding.md R56. -/
inductive Instr where
  /-- 00E0 `CLS` (R94). -/
  | cls
  /-- 00EE `RET` (R64). -/
  | ret
  /-- 1nnn `JP nnn` (R65). -/
  | jp (nnn : Imm12)
  /-- 2nnn `CALL nnn` (R66). -/
  | call (nnn : Imm12)
  /-- 3xnn `SE Vx, nn` (R67). -/
  | seImm (x : RegNum) (nn : Byte)
  /-- 4xnn `SNE Vx, nn` (R68). -/
  | sneImm (x : RegNum) (nn : Byte)
  /-- 5xy0 `SE Vx, Vy` (R69). -/
  | seReg (x y : RegNum)
  /-- 6xnn `LD Vx, nn` (R73). -/
  | ldImm (x : RegNum) (nn : Byte)
  /-- 7xnn `ADD Vx, nn` (R74). -/
  | addImm (x : RegNum) (nn : Byte)
  /-- 8xy0 `LD Vx, Vy` (R75). -/
  | ldReg (x y : RegNum)
  /-- 8xy1 `OR Vx, Vy` (R76). -/
  | orReg (x y : RegNum)
  /-- 8xy2 `AND Vx, Vy` (R77). -/
  | andReg (x y : RegNum)
  /-- 8xy3 `XOR Vx, Vy` (R78). -/
  | xorReg (x y : RegNum)
  /-- 8xy4 `ADD Vx, Vy` (R79). -/
  | addReg (x y : RegNum)
  /-- 8xy5 `SUB Vx, Vy` (R80). -/
  | sub (x y : RegNum)
  /-- 8xy6 `SHR Vx`; `y` is kept but is a don't-care (R81, R60). -/
  | shr (x y : RegNum)
  /-- 8xy7 `SUBN Vx, Vy` (R82). -/
  | subn (x y : RegNum)
  /-- 8xyE `SHL Vx`; `y` is kept but is a don't-care (R83, R60). -/
  | shl (x y : RegNum)
  /-- 9xy0 `SNE Vx, Vy` (R70). -/
  | sneReg (x y : RegNum)
  /-- Annn `LD I, nnn` (R86). -/
  | ldI (nnn : Imm12)
  /-- Bnnn `JP V0, nnn` (R71). -/
  | jpV0 (nnn : Imm12)
  /-- Cxnn `RND Vx, nn` (R85). -/
  | rnd (x : RegNum) (nn : Byte)
  /-- Dxyn `DRW Vx, Vy, n` (R95). -/
  | drw (x y : RegNum) (n : Imm4)
  /-- Ex9E `SKP Vx` (R97). -/
  | skp (x : RegNum)
  /-- ExA1 `SKNP Vx` (R98). -/
  | sknp (x : RegNum)
  /-- Fx07 `LD Vx, DT` (R99). -/
  | ldVxDt (x : RegNum)
  /-- Fx0A `LD Vx, K` (R100). -/
  | ldVxK (x : RegNum)
  /-- Fx15 `LD DT, Vx` (R101). -/
  | ldDtVx (x : RegNum)
  /-- Fx18 `LD ST, Vx` (R102). -/
  | ldStVx (x : RegNum)
  /-- Fx1E `ADD I, Vx` (R87). -/
  | addI (x : RegNum)
  /-- Fx29 `LD F, Vx` (R88). -/
  | ldF (x : RegNum)
  /-- Fx33 `LD B, Vx` (R89). -/
  | ldB (x : RegNum)
  /-- Fx55 `LD [I], Vx` (R90). -/
  | stRegs (x : RegNum)
  /-- Fx65 `LD Vx, [I]` (R91). -/
  | ldRegs (x : RegNum)
  deriving DecidableEq, Repr

end Sys2Proof
end

