-- ==== Sys2Proof/WellFormed.lean ====
section
/-!
DEFINITION. The well-formedness checks of what enters the machine: an instruction word against the opcode map
(30_encoding.md R55, R56) and a ROM against its bound (70_reset_and_hazards.md R146). A term of `Instr` needs no check:
its operands have the widths of their fields. The checks of a state's own data (`Memory.wf`, `Breakpoints.wf`,
`Snapshot.wf`) stand with the types in Machine/Ops.lean and Machine/HostOps.lean.
-/

namespace Sys2Proof

/-- A row of the opcode map: a word `w` is the row's if and only if `w & mask = value` (30_encoding.md R55). -/
structure OpcodeRow where
  /-- The pattern as the map writes it. -/
  pattern : String
  /-- The map's `match` column. -/
  value : Word
  /-- The map's `mask` column. -/
  mask : Word
  deriving DecidableEq, Repr

/-- Whether the word is one of the row's. -/
def OpcodeRow.accepts (r : OpcodeRow) (w : Word) : Bool := w &&& r.mask == r.value

/-- The opcode map of 30_encoding.md R56, row for row. -/
def opcodeMap : List OpcodeRow :=
  [ ⟨"00E0", 0x00E0, 0xFFFF⟩
  , ⟨"00EE", 0x00EE, 0xFFFF⟩
  , ⟨"1nnn", 0x1000, 0xF000⟩
  , ⟨"2nnn", 0x2000, 0xF000⟩
  , ⟨"3xnn", 0x3000, 0xF000⟩
  , ⟨"4xnn", 0x4000, 0xF000⟩
  , ⟨"5xy0", 0x5000, 0xF00F⟩
  , ⟨"6xnn", 0x6000, 0xF000⟩
  , ⟨"7xnn", 0x7000, 0xF000⟩
  , ⟨"8xy0", 0x8000, 0xF00F⟩
  , ⟨"8xy1", 0x8001, 0xF00F⟩
  , ⟨"8xy2", 0x8002, 0xF00F⟩ ] ++
  [ ⟨"8xy3", 0x8003, 0xF00F⟩
  , ⟨"8xy4", 0x8004, 0xF00F⟩
  , ⟨"8xy5", 0x8005, 0xF00F⟩
  , ⟨"8xy6", 0x8006, 0xF00F⟩
  , ⟨"8xy7", 0x8007, 0xF00F⟩
  , ⟨"8xyE", 0x800E, 0xF00F⟩
  , ⟨"9xy0", 0x9000, 0xF00F⟩
  , ⟨"Annn", 0xA000, 0xF000⟩
  , ⟨"Bnnn", 0xB000, 0xF000⟩
  , ⟨"Cxnn", 0xC000, 0xF000⟩
  , ⟨"Dxyn", 0xD000, 0xF000⟩
  , ⟨"Ex9E", 0xE09E, 0xF0FF⟩ ] ++
  [ ⟨"ExA1", 0xE0A1, 0xF0FF⟩
  , ⟨"Fx07", 0xF007, 0xF0FF⟩
  , ⟨"Fx0A", 0xF00A, 0xF0FF⟩
  , ⟨"Fx15", 0xF015, 0xF0FF⟩
  , ⟨"Fx18", 0xF018, 0xF0FF⟩
  , ⟨"Fx1E", 0xF01E, 0xF0FF⟩
  , ⟨"Fx29", 0xF029, 0xF0FF⟩
  , ⟨"Fx33", 0xF033, 0xF0FF⟩
  , ⟨"Fx55", 0xF055, 0xF0FF⟩
  , ⟨"Fx65", 0xF065, 0xF0FF⟩ ]

/-- A word is recognised if and only if it matches one of the 34 patterns (30_encoding.md R55). -/
def recognised (w : Word) : Bool := opcodeMap.any (fun r => r.accepts w)

/-- The row of the opcode map that an instruction belongs to. -/
def Instr.row : Instr → OpcodeRow
  | .cls => ⟨"00E0", 0x00E0, 0xFFFF⟩
  | .ret => ⟨"00EE", 0x00EE, 0xFFFF⟩
  | .jp _ => ⟨"1nnn", 0x1000, 0xF000⟩
  | .call _ => ⟨"2nnn", 0x2000, 0xF000⟩
  | .seImm _ _ => ⟨"3xnn", 0x3000, 0xF000⟩
  | .sneImm _ _ => ⟨"4xnn", 0x4000, 0xF000⟩
  | .seReg _ _ => ⟨"5xy0", 0x5000, 0xF00F⟩
  | .ldImm _ _ => ⟨"6xnn", 0x6000, 0xF000⟩
  | .addImm _ _ => ⟨"7xnn", 0x7000, 0xF000⟩
  | .ldReg _ _ => ⟨"8xy0", 0x8000, 0xF00F⟩
  | .orReg _ _ => ⟨"8xy1", 0x8001, 0xF00F⟩
  | .andReg _ _ => ⟨"8xy2", 0x8002, 0xF00F⟩
  | .xorReg _ _ => ⟨"8xy3", 0x8003, 0xF00F⟩
  | .addReg _ _ => ⟨"8xy4", 0x8004, 0xF00F⟩
  | .sub _ _ => ⟨"8xy5", 0x8005, 0xF00F⟩
  | .shr _ _ => ⟨"8xy6", 0x8006, 0xF00F⟩
  | .subn _ _ => ⟨"8xy7", 0x8007, 0xF00F⟩
  | .shl _ _ => ⟨"8xyE", 0x800E, 0xF00F⟩
  | .sneReg _ _ => ⟨"9xy0", 0x9000, 0xF00F⟩
  | .ldI _ => ⟨"Annn", 0xA000, 0xF000⟩
  | .jpV0 _ => ⟨"Bnnn", 0xB000, 0xF000⟩
  | .rnd _ _ => ⟨"Cxnn", 0xC000, 0xF000⟩
  | .drw _ _ _ => ⟨"Dxyn", 0xD000, 0xF000⟩
  | .skp _ => ⟨"Ex9E", 0xE09E, 0xF0FF⟩
  | .sknp _ => ⟨"ExA1", 0xE0A1, 0xF0FF⟩
  | .ldVxDt _ => ⟨"Fx07", 0xF007, 0xF0FF⟩
  | .ldVxK _ => ⟨"Fx0A", 0xF00A, 0xF0FF⟩
  | .ldDtVx _ => ⟨"Fx15", 0xF015, 0xF0FF⟩
  | .ldStVx _ => ⟨"Fx18", 0xF018, 0xF0FF⟩
  | .addI _ => ⟨"Fx1E", 0xF01E, 0xF0FF⟩
  | .ldF _ => ⟨"Fx29", 0xF029, 0xF0FF⟩
  | .ldB _ => ⟨"Fx33", 0xF033, 0xF0FF⟩
  | .stRegs _ => ⟨"Fx55", 0xF055, 0xF0FF⟩
  | .ldRegs _ => ⟨"Fx65", 0xF065, 0xF0FF⟩

/-- A ROM may be loaded if it has at most 3584 bytes (70_reset_and_hazards.md R146, R147). -/
def romFits (rom : List Byte) : Bool := decide (rom.length ≤ Config.romMax)

end Sys2Proof
end

