-- ==== Sys2Proof/Decode.lean ====
section
/-!
DEFINITION. Fields, decoding and encoding of the 16-bit instruction words (30_encoding.md R51 to R60).
Decoding follows the dispatch on nibbles of R55 and is total on all 65536 words; encoding follows the formats of R53.
-/

namespace Sys2Proof

/-- `op`, the top nibble `w[15:12]` (R52). -/
def opField (w : Word) : Nat := (w.extractLsb' 12 4).toNat

/-- `x`, the register number `w[11:8]` (R52). -/
def xField (w : Word) : RegNum := (w.extractLsb' 8 4).toFin

/-- `y`, the register number `w[7:4]` (R52). -/
def yField (w : Word) : RegNum := (w.extractLsb' 4 4).toFin

/-- `n`, the nibble `w[3:0]` (R52). -/
def nField (w : Word) : Imm4 := w.extractLsb' 0 4

/-- `nn`, the byte `w[7:0]` (R52). -/
def nnField (w : Word) : Byte := w.extractLsb' 0 8

/-- `nnn`, the twelve bits `w[11:0]` (R52). -/
def nnnField (w : Word) : Imm12 := w.extractLsb' 0 12

/-- Why a word or a byte sequence is no instruction: the six spaces of unrecognised words of 30_encoding.md R57, by
name, and a sequence too short to hold a word (which a fetch, always of two bytes, never produces). -/
inductive DecodeReject where
  /-- `0nnn` other than 00E0 and 00EE. -/
  | zeroSpace
  /-- `5xyN` with N not 0. -/
  | fiveSpace
  /-- `8xyN` with N in 8, 9, A, B, C, D, F. -/
  | eightSpace
  /-- `9xyN` with N not 0. -/
  | nineSpace
  /-- `Exkk` with kk other than 9E and A1. -/
  | eSpace
  /-- `Fxkk` with kk none of the nine secondary bytes. -/
  | fSpace
  /-- Fewer than two bytes. -/
  | truncated
  deriving DecidableEq, Repr

/-- The 8xy group, by the secondary nibble (R55). -/
def decodeEight (x y : RegNum) (n : Nat) : Except DecodeReject Instr :=
  match n with
  | 0x0 => .ok (.ldReg x y)
  | 0x1 => .ok (.orReg x y)
  | 0x2 => .ok (.andReg x y)
  | 0x3 => .ok (.xorReg x y)
  | 0x4 => .ok (.addReg x y)
  | 0x5 => .ok (.sub x y)
  | 0x6 => .ok (.shr x y)
  | 0x7 => .ok (.subn x y)
  | 0xE => .ok (.shl x y)
  | _ => .error .eightSpace

/-- The E group, by the secondary byte (R55). -/
def decodeE (x : RegNum) (nn : Byte) : Except DecodeReject Instr :=
  if nn = 0x9E then .ok (.skp x)
  else if nn = 0xA1 then .ok (.sknp x)
  else .error .eSpace

/-- The F group, by the secondary byte (R55). -/
def decodeF (x : RegNum) (nn : Byte) : Except DecodeReject Instr :=
  if nn = 0x07 then .ok (.ldVxDt x)
  else if nn = 0x0A then .ok (.ldVxK x)
  else if nn = 0x15 then .ok (.ldDtVx x)
  else if nn = 0x18 then .ok (.ldStVx x)
  else if nn = 0x1E then .ok (.addI x)
  else if nn = 0x29 then .ok (.ldF x)
  else if nn = 0x33 then .ok (.ldB x)
  else if nn = 0x55 then .ok (.stRegs x)
  else if nn = 0x65 then .ok (.ldRegs x)
  else .error .fSpace

/-- The decode function of 30_encoding.md R55. -/
def decode (w : Word) : Except DecodeReject Instr :=
  match opField w with
  | 0x0 => if w = 0x00E0 then .ok .cls else if w = 0x00EE then .ok .ret else .error .zeroSpace
  | 0x1 => .ok (.jp (nnnField w))
  | 0x2 => .ok (.call (nnnField w))
  | 0x3 => .ok (.seImm (xField w) (nnField w))
  | 0x4 => .ok (.sneImm (xField w) (nnField w))
  | 0x5 => if nField w = 0 then .ok (.seReg (xField w) (yField w)) else .error .fiveSpace
  | 0x6 => .ok (.ldImm (xField w) (nnField w))
  | 0x7 => .ok (.addImm (xField w) (nnField w))
  | 0x8 => decodeEight (xField w) (yField w) (nField w).toNat
  | 0x9 => if nField w = 0 then .ok (.sneReg (xField w) (yField w)) else .error .nineSpace
  | 0xA => .ok (.ldI (nnnField w))
  | 0xB => .ok (.jpV0 (nnnField w))
  | 0xC => .ok (.rnd (xField w) (nnField w))
  | 0xD => .ok (.drw (xField w) (yField w) (nField w))
  | 0xE => decodeE (xField w) (nnField w)
  | _ => decodeF (xField w) (nnField w)

/-- The 16-bit word of two bytes, the first byte high (20_memory.md R37). -/
def wordOfBytes (hi lo : Byte) : Word := BitVec.ofNat 16 (hi.toNat * 256 + lo.toNat)

/-- The two bytes of a word in the order they stand in memory, high byte first (20_memory.md R37, 30_encoding.md R51). -/
def bytesOfWord (w : Word) : List Byte := [w.extractLsb' 8 8, w.extractLsb' 0 8]

/-- Decoding a byte sequence: the first instruction and the bytes after it. Every instruction is two bytes long (R51). -/
def decodeBytes : List Byte → Except DecodeReject (Instr × List Byte)
  | hi :: lo :: rest =>
    match decode (wordOfBytes hi lo) with
    | .ok i => .ok (i, rest)
    | .error r => .error r
  | _ => .error .truncated

/-- Format `NNN` (R53): `op`, then `nnn`. -/
def encodeNNN (op : Nat) (nnn : Imm12) : Word := BitVec.ofNat 16 (op * 4096 + nnn.toNat)

/-- Formats `XNN` and `X` (R53): `op`, `x`, then a byte. -/
def encodeXNN (op : Nat) (x : RegNum) (nn : Byte) : Word := BitVec.ofNat 16 (op * 4096 + x.val * 256 + nn.toNat)

/-- Formats `XY` and `XYN` (R53): `op`, `x`, `y`, then a nibble. -/
def encodeXYN (op : Nat) (x y : RegNum) (n : Imm4) : Word :=
  BitVec.ofNat 16 (op * 4096 + x.val * 256 + y.val * 16 + n.toNat)

/-- The word of an instruction (30_encoding.md R53, R56). -/
def encode : Instr → Word
  | .cls => 0x00E0
  | .ret => 0x00EE
  | .jp nnn => encodeNNN 0x1 nnn
  | .call nnn => encodeNNN 0x2 nnn
  | .seImm x nn => encodeXNN 0x3 x nn
  | .sneImm x nn => encodeXNN 0x4 x nn
  | .seReg x y => encodeXYN 0x5 x y 0x0
  | .ldImm x nn => encodeXNN 0x6 x nn
  | .addImm x nn => encodeXNN 0x7 x nn
  | .ldReg x y => encodeXYN 0x8 x y 0x0
  | .orReg x y => encodeXYN 0x8 x y 0x1
  | .andReg x y => encodeXYN 0x8 x y 0x2
  | .xorReg x y => encodeXYN 0x8 x y 0x3
  | .addReg x y => encodeXYN 0x8 x y 0x4
  | .sub x y => encodeXYN 0x8 x y 0x5
  | .shr x y => encodeXYN 0x8 x y 0x6
  | .subn x y => encodeXYN 0x8 x y 0x7
  | .shl x y => encodeXYN 0x8 x y 0xE
  | .sneReg x y => encodeXYN 0x9 x y 0x0
  | .ldI nnn => encodeNNN 0xA nnn
  | .jpV0 nnn => encodeNNN 0xB nnn
  | .rnd x nn => encodeXNN 0xC x nn
  | .drw x y n => encodeXYN 0xD x y n
  | .skp x => encodeXNN 0xE x 0x9E
  | .sknp x => encodeXNN 0xE x 0xA1
  | .ldVxDt x => encodeXNN 0xF x 0x07
  | .ldVxK x => encodeXNN 0xF x 0x0A
  | .ldDtVx x => encodeXNN 0xF x 0x15
  | .ldStVx x => encodeXNN 0xF x 0x18
  | .addI x => encodeXNN 0xF x 0x1E
  | .ldF x => encodeXNN 0xF x 0x29
  | .ldB x => encodeXNN 0xF x 0x33
  | .stRegs x => encodeXNN 0xF x 0x55
  | .ldRegs x => encodeXNN 0xF x 0x65

/-- The host's question about the decoder: the instruction read from the word whose bits, numbered as
spec/opcode_table.json numbers them, are the low `nbits` bits of `w`, laid out in memory high byte first. -/
def decodeTableWord (nbits w : Nat) : Option Instr :=
  match decodeBytes (bytesOfWord (BitVec.ofNat 16 (w % 2 ^ nbits))) with
  | .ok (i, _) => some i
  | .error _ => none

/-! Each constructor's decoding, from a word written out by its row of 30_encoding.md R56 (many are the words of
95_test_vectors.md). -/

theorem decode_cls : decode 0x00E0 = .ok .cls := by decide
theorem decode_ret : decode 0x00EE = .ok .ret := by decide
theorem decode_jp : decode 0x1ABC = .ok (.jp 0xABC) := by decide
theorem decode_call : decode 0x2ABC = .ok (.call 0xABC) := by decide
theorem decode_seImm : decode 0x3A55 = .ok (.seImm 10 0x55) := by decide
theorem decode_sneImm : decode 0x4A55 = .ok (.sneImm 10 0x55) := by decide
theorem decode_seReg : decode 0x5120 = .ok (.seReg 1 2) := by decide
theorem decode_ldImm : decode 0x6A55 = .ok (.ldImm 10 0x55) := by decide
theorem decode_addImm : decode 0x7A01 = .ok (.addImm 10 0x01) := by decide
theorem decode_ldReg : decode 0x8F10 = .ok (.ldReg 15 1) := by decide
theorem decode_orReg : decode 0x8121 = .ok (.orReg 1 2) := by decide
theorem decode_andReg : decode 0x8122 = .ok (.andReg 1 2) := by decide
theorem decode_xorReg : decode 0x8123 = .ok (.xorReg 1 2) := by decide
theorem decode_addReg : decode 0x8F14 = .ok (.addReg 15 1) := by decide
theorem decode_sub : decode 0x8125 = .ok (.sub 1 2) := by decide
theorem decode_shr : decode 0x81F6 = .ok (.shr 1 15) := by decide
theorem decode_subn : decode 0x80F7 = .ok (.subn 0 15) := by decide
theorem decode_shl : decode 0x812E = .ok (.shl 1 2) := by decide
theorem decode_sneReg : decode 0x9120 = .ok (.sneReg 1 2) := by decide
theorem decode_ldI : decode 0xA2F0 = .ok (.ldI 0x2F0) := by decide
theorem decode_jpV0 : decode 0xB300 = .ok (.jpV0 0x300) := by decide
theorem decode_rnd : decode 0xC30F = .ok (.rnd 3 0x0F) := by decide
theorem decode_drw : decode 0xD345 = .ok (.drw 3 4 5) := by decide
theorem decode_skp : decode 0xE29E = .ok (.skp 2) := by decide
theorem decode_sknp : decode 0xE2A1 = .ok (.sknp 2) := by decide
theorem decode_ldVxDt : decode 0xF307 = .ok (.ldVxDt 3) := by decide
theorem decode_ldVxK : decode 0xF50A = .ok (.ldVxK 5) := by decide
theorem decode_ldDtVx : decode 0xF015 = .ok (.ldDtVx 0) := by decide
theorem decode_ldStVx : decode 0xF118 = .ok (.ldStVx 1) := by decide
theorem decode_addI : decode 0xF21E = .ok (.addI 2) := by decide
theorem decode_ldF : decode 0xF429 = .ok (.ldF 4) := by decide
theorem decode_ldB : decode 0xF033 = .ok (.ldB 0) := by decide
theorem decode_stRegs : decode 0xF155 = .ok (.stRegs 1) := by decide
theorem decode_ldRegs : decode 0xF265 = .ok (.ldRegs 2) := by decide

end Sys2Proof
end

