-- ==== Sys2Proof/Machine/State.lean ====
section
/-!
DEFINITION. The state of the CORE: the fifteen elements of 10_state.md R32, as plain data, and the state after power-on.
-/

namespace Sys2Proof.Machine

/-- The reasons a step of the model stops. There are none: `cycle()` is total (45_host_operations.md R105 (c)), and the
two stack faults of 60_exceptions.md R124 are next states in which the engine is halted and the `fault` latch set. No
one raises a fault of the model, so this adds no difference from the hardware (safe). Log entry 6. -/
inductive Fault where
  deriving DecidableEq, Repr

/-- The reasons an instruction is given no meaning. -/
inductive Refusal where
  /-- Raised by `exec` for an instruction that has no meaning yet; safe, since nothing is claimed of it. No arm of `exec`
  raises it now. -/
  | notModelled (mnemonic : String)
  deriving DecidableEq, Repr

/-- The values of the sticky latch `fault` (10_state.md R29). -/
inductive FaultCode where
  /-- No stack fault since reset. -/
  | none
  /-- 2nnn was executed with `sp = 16` (60_exceptions.md R125). -/
  | stackOverflow
  /-- 00EE was executed with `sp = 0` (60_exceptions.md R126). -/
  | stackUnderflow
  deriving DecidableEq, Repr

/-- The event a `cycle()` returns (60_exceptions.md R121). It is an output, not state (10_state.md R30 (a)). -/
inductive Event where
  /-- Code 0: the engine was halted at entry. -/
  | idle
  /-- Code 1: a recognised instruction completed without fault. -/
  | executed
  /-- Code 2: running, and pc in the breakpoint set at entry. -/
  | breakpointHit (pc : Word)
  /-- Code 3: the fetched word is no instruction. -/
  | unknownOpcode (pc0 word : Word)
  /-- Code 4: 2nnn with a full stack. -/
  | stackOverflow (pc0 : Word)
  /-- Code 5: 00EE with an empty stack. -/
  | stackUnderflow (pc0 : Word)
  deriving DecidableEq, Repr

/-- Memory as a list of the bytes that differ from what reset leaves, in rising order of address (the canonical form is
`Memory.wf`, the byte an unlisted address holds is `Memory.blank`, both in Machine/Ops.lean). Log entry 5. -/
abbrev Memory := List Host.Cell

/-- The 64 x 32 framebuffer: bit `px` of row `py` is the pixel in column `px` (10_state.md R23, 43_display.md R93).
Log entry 7. -/
structure Framebuffer where
  /-- The 32 rows, top row first. -/
  rows : Vector (BitVec 64) 32
  deriving DecidableEq, Repr

/-- The breakpoint set, its members in rising order (10_state.md R26). Log entry 5. -/
abbrev Breakpoints := List Word

/-- The opaque random source (10_state.md R28), in the model's own representation: which free byte is drawn next.
Log entry 3. -/
structure Rng where
  /-- The opaque argument of the last `reset` (70_reset_and_hazards.md R145). -/
  seed : Nat
  /-- How many bytes have been drawn since power-on. -/
  draws : Nat
  deriving DecidableEq, Repr

/-- The state of the CORE (10_state.md R32). -/
structure State where
  /-- 4096 bytes (R13). -/
  memory : Memory
  /-- V0 to VF (R14). -/
  registers : Vector Byte 16
  /-- The index register I (R16). -/
  index : Word
  /-- The program counter (R17). -/
  pc : Word
  /-- The sixteen return addresses (R19). -/
  stack : Vector Word 16
  /-- The number of live stack entries, 0 to 16 (R20). -/
  sp : Fin 17
  /-- DT (R21). -/
  delayTimer : Byte
  /-- ST (R22). -/
  soundTimer : Byte
  /-- The pixels (R23). -/
  framebuffer : Framebuffer
  /-- Set by draw, clear and reset, cleared by the host (R24). -/
  changed : Bool
  /-- The key latch (R25). -/
  keys : Vector Bool 16
  /-- The breakpoint set (R26). -/
  breakpoints : Breakpoints
  /-- Running or Halted (R27). -/
  running : Bool
  /-- The random source (R28). -/
  rng : Rng
  /-- The fault latch (R29). -/
  fault : FaultCode
  deriving DecidableEq, Repr

/-- The machine right after power-on (70_reset_and_hazards.md R142): every element at its reset value (R143), the
breakpoint set empty. Memory lists nothing: an unlisted address holds what reset leaves there. The two fields of `rng`
are the model's own (log entry 3). -/
def State.reset : State where
  memory := []
  registers := Vector.replicate 16 0
  index := 0
  pc := 0x0200
  stack := Vector.replicate 16 0
  sp := 0
  delayTimer := 0
  soundTimer := 0
  framebuffer := ⟨Vector.replicate 32 0⟩
  changed := true
  keys := Vector.replicate 16 false
  breakpoints := []
  running := false
  rng := ⟨0, 0⟩
  fault := .none

end Sys2Proof.Machine
end

