-- ==== Sys2Proof/Machine/Ops.lean ====
section
/-!
DEFINITION. The named operations over the state: memory, registers, program counter, call stack, framebuffer, timers,
run control, taking a stack fault and going on after one. Every meaning and every host operation is written over these.
-/

namespace Sys2Proof.Machine

/-! ### The font table -/

/-- The 80 bytes of 70_reset_and_hazards.md R144, glyph by glyph, top row first. Log entry 4. -/
def fontTable : List Byte :=
  [ 0xF0, 0x90, 0x90, 0x90, 0xF0 ] ++ [ 0x20, 0x60, 0x20, 0x20, 0x70 ] ++
  [ 0xF0, 0x10, 0xF0, 0x80, 0xF0 ] ++ [ 0xF0, 0x10, 0xF0, 0x10, 0xF0 ] ++
  [ 0x90, 0x90, 0xF0, 0x10, 0x10 ] ++ [ 0xF0, 0x80, 0xF0, 0x10, 0xF0 ] ++
  [ 0xF0, 0x80, 0xF0, 0x90, 0xF0 ] ++ [ 0xF0, 0x10, 0x20, 0x40, 0x40 ] ++
  [ 0xF0, 0x90, 0xF0, 0x90, 0xF0 ] ++ [ 0xF0, 0x90, 0xF0, 0x10, 0xF0 ] ++
  [ 0xF0, 0x90, 0xF0, 0x90, 0x90 ] ++ [ 0xE0, 0x90, 0xE0, 0x90, 0xE0 ] ++
  [ 0xF0, 0x80, 0x80, 0x80, 0xF0 ] ++ [ 0xE0, 0x90, 0x90, 0x90, 0xE0 ] ++
  [ 0xF0, 0x80, 0xF0, 0x80, 0xF0 ] ++ [ 0xF0, 0x80, 0xF0, 0x80, 0x80 ]

/-! ### Memory -/

/-- What an unlisted address holds: the contents after `reset()`, the font at 0x050 to 0x09F and 0x00 everywhere else
(10_state.md R13, 70_reset_and_hazards.md R143). -/
def Memory.blank (a : Nat) : Byte :=
  if Config.fontBase ≤ a ∧ a < Config.fontBase + Config.fontBytes then fontTable.getD (a - Config.fontBase) 0 else 0

/-- The canonical form: addresses strictly rising and inside the 4096 bytes, no entry equal to what an unlisted address
holds. Equal memories are then equal lists. -/
abbrev Memory.wf (m : Memory) : Prop :=
  m.Pairwise (fun c d => c.1 < d.1) ∧ ∀ c ∈ m, c.1 < Config.memSize ∧ c.2 ≠ Memory.blank c.1

/-- The byte at an address below 4096. -/
def Memory.lookup : Memory → Nat → Byte
  | [], a => Memory.blank a
  | (b, v) :: m, a => if b = a then v else Memory.lookup m a

/-- Put a new entry in its place among rising addresses. -/
def Memory.insert : Memory → Nat → Byte → Memory
  | [], a, v => [(a, v)]
  | (b, u) :: m, a, v => if a < b then (a, v) :: (b, u) :: m else (b, u) :: Memory.insert m a v

/-- Give the byte at an address below 4096 a new value, keeping the canonical form. -/
def Memory.put (m : Memory) (a : Nat) (v : Byte) : Memory :=
  let rest := m.filter (fun c => c.1 != a)
  if v = Memory.blank a then rest else Memory.insert rest a v

/-- `MemRead(addr, 1)` (20_memory.md R35). -/
def Memory.read (m : Memory) (addr : Nat) : Byte := Memory.lookup m (addr % Config.memSize)

/-- `MemWrite(addr, 1, v)` (20_memory.md R36). -/
def Memory.write (m : Memory) (addr : Nat) (v : Byte) : Memory := Memory.put m (addr % Config.memSize) v

/-- Single-byte writes at ascending addresses from `addr`, each reduced mod 4096 separately (20_memory.md R39). -/
def Memory.writeBytes : Memory → Nat → List Byte → Memory
  | m, _, [] => m
  | m, addr, v :: vs => Memory.writeBytes (Memory.write m addr v) (addr + 1) vs

/-- Single-byte reads at ascending addresses from `addr` (20_memory.md R39). -/
def Memory.readBytes (m : Memory) (addr count : Nat) : List Byte :=
  (List.range count).map (fun k => Memory.read m (addr + k))

/-- `MemRead(pc, 2)`: the big-endian instruction word at pc (20_memory.md R37, R38). -/
def State.fetchWord (s : State) : Word :=
  wordOfBytes (Memory.read s.memory s.pc.toNat) (Memory.read s.memory (s.pc.toNat + 1))

/-- The state with another memory. -/
def State.setMemory (s : State) (m : Memory) : State := { s with memory := m }

/-! ### General registers, I and pc -/

/-- Read `V[r]` (10_state.md R14). -/
def State.v (s : State) (r : RegNum) : Byte := s.registers[r.val]

/-- Write `V[r]` (10_state.md R14). No register is hardwired. -/
def State.setV (s : State) (r : RegNum) (b : Byte) : State := { s with registers := s.registers.set r.val b }

/-- VF, register 15, the machine's only flag register (10_state.md R15). -/
def vf : RegNum := 15

/-- Registers filled from number `k` upward with the bytes of a list, in ascending order (42_index_memory.md R91). -/
def fillRegisters : Vector Byte 16 → Nat → List Byte → Vector Byte 16
  | v, _, [] => v
  | v, k, b :: bs => fillRegisters (v.setIfInBounds k b) (k + 1) bs

/-- The state with other general registers. -/
def State.setRegisters (s : State) (v : Vector Byte 16) : State := { s with registers := v }

/-- Write I (10_state.md R16). -/
def State.setIndex (s : State) (a : Word) : State := { s with index := a }

/-- Write pc (10_state.md R17). -/
def State.setPc (s : State) (a : Word) : State := { s with pc := a }

/-- Step 4 of `cycle()`: pc + 2 mod 65536, before any instruction's semantics (45_host_operations.md R104). -/
def State.advancePc (s : State) : State := s.setPc (s.pc + 2)

/-- `pc0`, the address the executing instruction was fetched from, pc being already advanced (00_scope.md section 7). -/
def State.pc0 (s : State) : Word := s.pc - 2

/-- `skip` under a condition: a further 2 to pc (00_scope.md section 7, 40_flow.md R63). -/
def State.skipIf (s : State) (c : Bool) : State := if c then s.setPc (s.pc + 2) else s

/-! ### Run control; taking a stack fault, and going on after one -/

/-- `running` set to 1 or 0 (10_state.md R27). -/
def State.setRunning (s : State) (r : Bool) : State := { s with running := r }

/-- `raise F(pc0)` (60_exceptions.md R124): pc back to the faulting instruction, the engine halted, the latch set, and
nothing else changed. -/
def State.raise (s : State) (f : FaultCode) : State := { s with pc := s.pc0, running := false, fault := f }

/-- Going on after a halt (60_exceptions.md R134, 45_host_operations.md R112): only `running` is set, so the instruction
at pc, the faulting one after a fault, runs next. -/
def State.resume (s : State) : State := s.setRunning true

/-! ### The call stack -/

/-- A subroutine call: push pc and go to the target, or StackOverflow when all 16 entries are in use (40_flow.md R66). -/
def State.pushAndGo (s : State) (target : Word) : State :=
  if h : s.sp.val < 16 then
    { s with stack := s.stack.set s.sp.val s.pc, sp := ⟨s.sp.val + 1, by omega⟩, pc := target }
  else s.raise .stackOverflow

/-- A return: go to the most recent return address, which stays in the array, or StackUnderflow when no entry is in use
(40_flow.md R64, 10_state.md R19). -/
def State.popAndGo (s : State) : State :=
  if h : 0 < s.sp.val then
    { s with sp := ⟨s.sp.val - 1, by omega⟩, pc := s.stack[s.sp.val - 1] }
  else s.raise .stackUnderflow

/-! ### Framebuffer -/

/-- The framebuffer with every pixel off. -/
def Framebuffer.clear : Framebuffer := ⟨Vector.replicate 32 0⟩

/-- `fb[px, py]` (43_display.md R93). -/
def Framebuffer.pixel (fb : Framebuffer) (px : Fin 64) (py : Fin 32) : Bool := fb.rows[py.val].getLsbD px.val

/-- `fb[px, py] <- fb[px, py] ^ 1` (43_display.md R95). -/
def Framebuffer.flip (fb : Framebuffer) (px : Fin 64) (py : Fin 32) : Framebuffer :=
  ⟨fb.rows.set py.val (fb.rows[py.val] ^^^ BitVec.twoPow 64 px.val)⟩

/-- One step of the XOR blitter and collision detector, for one set sprite bit (43_display.md R95). -/
def blitPixel (acc : Framebuffer × Bool) (p : Fin 64 × Fin 32) : Framebuffer × Bool :=
  (acc.1.flip p.1 p.2, acc.2 || acc.1.pixel p.1 p.2)

/-- Store a framebuffer and set `changed`, as every clear and every draw does (10_state.md R24). -/
def State.show (s : State) (fb : Framebuffer) : State := { s with framebuffer := fb, changed := true }

/-- Clear `changed`, as only the host can (10_state.md R24). -/
def State.clearChanged (s : State) : State := { s with changed := false }

/-! ### Timers, keys, breakpoints, random source -/

/-- Write DT (10_state.md R21). -/
def State.setDelay (s : State) (b : Byte) : State := { s with delayTimer := b }

/-- Write ST (10_state.md R22). -/
def State.setSound (s : State) (b : Byte) : State := { s with soundTimer := b }

/-- One tick of a countdown register: down by one, never below 0 (45_host_operations.md R106). -/
def countDown (b : Byte) : Byte := if b = 0 then 0 else b - 1

/-- Whether key number `k` is held; no key has a number above 15 (10_state.md R25). -/
def State.keyHeld (s : State) (k : Nat) : Bool := if h : k < 16 then s.keys[k] else false

/-- Set or clear a key bit (10_state.md R25). -/
def State.setKey (s : State) (k : Fin 16) (down : Bool) : State := { s with keys := s.keys.set k.val down }

/-- The canonical form of the breakpoint set: members strictly rising. -/
abbrev Breakpoints.wf (bp : Breakpoints) : Prop := bp.Pairwise (fun a b => a.toNat < b.toNat)

/-- `breakpoints union {a}`, keeping the canonical form (45_host_operations.md R109). -/
def Breakpoints.add : Breakpoints → Word → Breakpoints
  | [], a => [a]
  | b :: bp, a =>
    if a = b then b :: bp
    else if a.toNat < b.toNat then a :: b :: bp
    else b :: Breakpoints.add bp a

/-- `breakpoints minus {a}` (45_host_operations.md R110). -/
def Breakpoints.remove (bp : Breakpoints) (a : Word) : Breakpoints := bp.filter (fun b => b != a)

/-- The state with another breakpoint set. -/
def State.setBreakpoints (s : State) (bp : Breakpoints) : State := { s with breakpoints := bp }

/-- The byte the next draw gives: a free value (41_alu.md R85). Log entry 3. -/
def State.randomByte (s : State) : Byte := Config.randomByte s.rng.seed s.rng.draws

/-- A draw consumes one byte (41_alu.md R85). -/
def State.consumeDraw (s : State) : State := { s with rng := ⟨s.rng.seed, s.rng.draws + 1⟩ }

/-- The smallest state change under which the next cycle fetches and runs the given word: its two bytes at pc, the engine
Running, and no breakpoint at pc. Log entry 2. -/
def State.placeWord (s : State) (w : Word) : State :=
  ((s.setMemory (Memory.writeBytes s.memory s.pc.toNat (bytesOfWord w))).setBreakpoints
    (Breakpoints.remove s.breakpoints s.pc)).setRunning true

end Sys2Proof.Machine
end

