-- ==== Sys2Proof/Machine/Operands.lean ====
section
/-!
DEFINITION. Operand forms: widening of immediates, addresses computed from I, glyph addresses, decimal digits, key
operands, and the coordinates and bits of a sprite.
-/

namespace Sys2Proof.Machine

/-- `zext_16` of the immediate `nnn` (30_encoding.md R54). -/
def zextImm (nnn : Imm12) : Word := nnn.setWidth 16

/-- `zext_16` of a byte (30_encoding.md R54). -/
def zextByte (b : Byte) : Word := b.setWidth 16

/-- The address of the glyph for a digit value, without a mask: 0x050 + 5 * b (42_index_memory.md R88). -/
def glyphAddress (b : Byte) : Word := BitVec.ofNat 16 (Config.fontBase + 5 * b.toNat)

/-- The hundreds, tens and ones digits of a byte, in the order Fx33 stores them (42_index_memory.md R89). -/
def decimalDigits (b : Byte) : List Byte :=
  [BitVec.ofNat 8 (b.toNat / 100), BitVec.ofNat 8 (b.toNat / 10 % 10), BitVec.ofNat 8 (b.toNat % 10)]

/-- V0 to Vx in ascending order, the bytes Fx55 stores (42_index_memory.md R90). -/
def State.registersUpTo (s : State) (x : RegNum) : List Byte := s.registers.toList.take (x.val + 1)

/-- I + x + 1 mod 65536, what Fx55 and Fx65 leave in I (42_index_memory.md R90, R91). -/
def State.indexPast (s : State) (x : RegNum) : Word := s.index + BitVec.ofNat 16 (x.val + 1)

/-- `KeyPressed(v)`: the key bit for 0 to 15, false for every other value, with no reduction (44_timer_key.md R103). -/
def State.keyPressed (s : State) (b : Byte) : Bool := s.keyHeld b.toNat

/-- The least key number that is held, if any (44_timer_key.md R100). -/
def State.leastKey (s : State) : Option Nat := (List.range 16).find? (fun k => s.keyHeld k)

/-- `b[7 - col]`: bit 7 is the leftmost pixel of a sprite row (43_display.md R95, R96). -/
def spriteBit (b : Byte) (col : Nat) : Bool := b.getLsbD (7 - col)

/-- `(ox + col) mod 64` (43_display.md R95). -/
def pixelColumn (ox : Byte) (col : Nat) : Fin 64 := Fin.ofNat 64 (ox.toNat + col)

/-- `(oy + row) mod 32` (43_display.md R95). -/
def pixelRow (oy : Byte) (row : Nat) : Fin 32 := Fin.ofNat 32 (oy.toNat + row)

/-- The pixels under the set bits of one sprite row, left to right (43_display.md R95). -/
def rowPixels (ox oy : Byte) (row : Nat) (b : Byte) : List (Fin 64 × Fin 32) :=
  ((List.range 8).filter (fun col => spriteBit b col)).map (fun col => (pixelColumn ox col, pixelRow oy row))

/-- The pixels under the set bits of an n-row sprite at `addr`, row by row (43_display.md R95). -/
def spritePixels (m : Memory) (addr : Word) (ox oy : Byte) (n : Nat) : List (Fin 64 × Fin 32) :=
  (List.range n).flatMap (fun row => rowPixels ox oy row (Memory.read m (addr.toNat + row)))

end Sys2Proof.Machine
end

