-- ==== Sys2Proof/Machine/Flags.lean ====
section
/-!
DEFINITION. The flag computations: what the flag-writing instructions put in VF (10_state.md R15, 41_alu.md R72).
-/

namespace Sys2Proof.Machine

/-- A flag as the byte written to VF: 1 or 0 (10_state.md R15). -/
def flagByte (c : Bool) : Byte := if c then 1 else 0

/-- The carry of an addition: the exact sum exceeds 255 (41_alu.md R79). -/
def carryOut (a b : Byte) : Bool := decide (255 < a.toNat + b.toNat)

/-- The flag of a subtraction: minuend strictly above subtrahend (41_alu.md R72 (d), R80, R82). -/
def exceeds (minuend subtrahend : Byte) : Bool := decide (subtrahend.toNat < minuend.toNat)

/-- The bit a right shift puts out (41_alu.md R81). -/
def bitZero (a : Byte) : Bool := a.getLsbD 0

/-- The bit a left shift puts out (41_alu.md R83). -/
def bitSeven (a : Byte) : Bool := a.getLsbD 7

/-- Write a flag to VF. -/
def State.setFlag (s : State) (c : Bool) : State := s.setV vf (flagByte c)

/-- The two statements of a flag-writing register instruction, in the order of 41_alu.md R79 to R84: first VF, computed
from the old registers, then Vx, computed from the registers AS THE FIRST STATEMENT LEFT THEM. -/
def State.flagThenResult (s : State) (x y : RegNum) (flag : Byte → Byte → Bool) (result : Byte → Byte → Byte) : State :=
  let t := s.setFlag (flag (s.v x) (s.v y))
  t.setV x (result (t.v x) (t.v y))

end Sys2Proof.Machine
end

