-- ==== Sys2Proof/Machine/Alu.lean ====
section
/-!
DEFINITION. The meanings of the register load, arithmetic, logic and random instructions (41_alu.md).
-/

namespace Sys2Proof.Machine

/-- 6xnn `LD Vx, nn` (R73). -/
def execLdImm (x : RegNum) (nn : Byte) (s : State) : Host.Outcome State Fault Refusal := .next (s.setV x nn)

/-- 7xnn `ADD Vx, nn` (R74): no flag. -/
def execAddImm (x : RegNum) (nn : Byte) (s : State) : Host.Outcome State Fault Refusal := .next (s.setV x (s.v x + nn))

/-- 8xy0 `LD Vx, Vy` (R75). -/
def execLdReg (x y : RegNum) (s : State) : Host.Outcome State Fault Refusal := .next (s.setV x (s.v y))

/-- 8xy1 `OR Vx, Vy` (R76): VF kept. -/
def execOrReg (x y : RegNum) (s : State) : Host.Outcome State Fault Refusal := .next (s.setV x (s.v x ||| s.v y))

/-- 8xy2 `AND Vx, Vy` (R77): VF kept. -/
def execAndReg (x y : RegNum) (s : State) : Host.Outcome State Fault Refusal := .next (s.setV x (s.v x &&& s.v y))

/-- 8xy3 `XOR Vx, Vy` (R78): VF kept. -/
def execXorReg (x y : RegNum) (s : State) : Host.Outcome State Fault Refusal := .next (s.setV x (s.v x ^^^ s.v y))

/-- 8xy4 `ADD Vx, Vy` (R79, R84). -/
def execAddReg (x y : RegNum) (s : State) : Host.Outcome State Fault Refusal :=
  .next (s.flagThenResult x y carryOut (fun a b => a + b))

/-- 8xy5 `SUB Vx, Vy` (R80, R84). -/
def execSub (x y : RegNum) (s : State) : Host.Outcome State Fault Refusal :=
  .next (s.flagThenResult x y exceeds (fun a b => a - b))

/-- 8xy6 `SHR Vx` (R81, R84): `y` is a don't-care and Vy is not used. -/
def execShr (x y : RegNum) (s : State) : Host.Outcome State Fault Refusal :=
  .next (s.flagThenResult x y (fun a _ => bitZero a) (fun a _ => a >>> 1))

/-- 8xy7 `SUBN Vx, Vy` (R82, R84). -/
def execSubn (x y : RegNum) (s : State) : Host.Outcome State Fault Refusal :=
  .next (s.flagThenResult x y (fun a b => exceeds b a) (fun a b => b - a))

/-- 8xyE `SHL Vx` (R83, R84): `y` is a don't-care and Vy is not used. -/
def execShl (x y : RegNum) (s : State) : Host.Outcome State Fault Refusal :=
  .next (s.flagThenResult x y (fun a _ => bitSeven a) (fun a _ => a <<< 1))

/-- Cxnn `RND Vx, nn` (R85): one draw, a free value, masked with nn. -/
def execRnd (x : RegNum) (nn : Byte) (s : State) : Host.Outcome State Fault Refusal :=
  .next (s.consumeDraw.setV x (s.randomByte &&& nn))

end Sys2Proof.Machine
end

