-- ==== Sys2Proof/Machine/Display.lean ====
section
/-!
DEFINITION. The meanings of the display instructions (43_display.md).
-/

namespace Sys2Proof.Machine

/-- 00E0 `CLS` (R94). -/
def execCls (s : State) : Host.Outcome State Fault Refusal := .next (s.show Framebuffer.clear)

/-- The whole blit of Dxyn: framebuffer and collision bit after all rows (R95). -/
def State.blit (s : State) (x y : RegNum) (n : Imm4) : Framebuffer × Bool :=
  (spritePixels s.memory s.index (s.v x) (s.v y) n.toNat).foldl blitPixel (s.framebuffer, false)

/-- Dxyn `DRW Vx, Vy, n` (R95): both origins are read before VF is written, VF receives the collision bit last. -/
def execDrw (x y : RegNum) (n : Imm4) (s : State) : Host.Outcome State Fault Refusal :=
  .next ((s.show (s.blit x y n).1).setFlag (s.blit x y n).2)

end Sys2Proof.Machine
end

