-- ==== Sys2Proof/Machine/Flow.lean ====
section
/-!
DEFINITION. The meanings of the control transfer instructions (40_flow.md). In every meaning pc is already advanced by 2
(00_scope.md section 7, log entry 10).
-/

namespace Sys2Proof.Machine

/-- 00EE `RET` (R64). -/
def execRet (s : State) : Host.Outcome State Fault Refusal := .next s.popAndGo

/-- 1nnn `JP nnn` (R65). -/
def execJp (nnn : Imm12) (s : State) : Host.Outcome State Fault Refusal := .next (s.setPc (zextImm nnn))

/-- 2nnn `CALL nnn` (R66). -/
def execCall (nnn : Imm12) (s : State) : Host.Outcome State Fault Refusal := .next (s.pushAndGo (zextImm nnn))

/-- 3xnn `SE Vx, nn` (R67). -/
def execSeImm (x : RegNum) (nn : Byte) (s : State) : Host.Outcome State Fault Refusal := .next (s.skipIf (s.v x == nn))

/-- 4xnn `SNE Vx, nn` (R68). -/
def execSneImm (x : RegNum) (nn : Byte) (s : State) : Host.Outcome State Fault Refusal := .next (s.skipIf (s.v x != nn))

/-- 5xy0 `SE Vx, Vy` (R69). -/
def execSeReg (x y : RegNum) (s : State) : Host.Outcome State Fault Refusal := .next (s.skipIf (s.v x == s.v y))

/-- 9xy0 `SNE Vx, Vy` (R70). -/
def execSneReg (x y : RegNum) (s : State) : Host.Outcome State Fault Refusal := .next (s.skipIf (s.v x != s.v y))

/-- Bnnn `JP V0, nnn` (R71): the sum keeps all 16 bits. -/
def execJpV0 (nnn : Imm12) (s : State) : Host.Outcome State Fault Refusal :=
  .next (s.setPc (zextImm nnn + zextByte (s.v 0)))

end Sys2Proof.Machine
end

