-- ==== Sys2Proof/Machine/IndexMemory.lean ====
section
/-!
DEFINITION. The meanings of the index register and memory transfer instructions (42_index_memory.md).
-/

namespace Sys2Proof.Machine

/-- Annn `LD I, nnn` (R86). -/
def execLdI (nnn : Imm12) (s : State) : Host.Outcome State Fault Refusal := .next (s.setIndex (zextImm nnn))

/-- Fx1E `ADD I, Vx` (R87): 16-bit wrap, no flag. -/
def execAddI (x : RegNum) (s : State) : Host.Outcome State Fault Refusal := .next (s.setIndex (s.index + zextByte (s.v x)))

/-- Fx29 `LD F, Vx` (R88). -/
def execLdF (x : RegNum) (s : State) : Host.Outcome State Fault Refusal := .next (s.setIndex (glyphAddress (s.v x)))

/-- Fx33 `LD B, Vx` (R89). -/
def execLdB (x : RegNum) (s : State) : Host.Outcome State Fault Refusal :=
  .next (s.setMemory (Memory.writeBytes s.memory s.index.toNat (decimalDigits (s.v x))))

/-- Fx55 `LD [I], Vx` (R90). -/
def execStRegs (x : RegNum) (s : State) : Host.Outcome State Fault Refusal :=
  .next ((s.setMemory (Memory.writeBytes s.memory s.index.toNat (s.registersUpTo x))).setIndex (s.indexPast x))

/-- Fx65 `LD Vx, [I]` (R91). -/
def execLdRegs (x : RegNum) (s : State) : Host.Outcome State Fault Refusal :=
  .next ((s.setRegisters (fillRegisters s.registers 0 (Memory.readBytes s.memory s.index.toNat (x.val + 1)))).setIndex
    (s.indexPast x))

end Sys2Proof.Machine
end

