-- ==== Sys2Proof/Machine/TimerKey.lean ====
section
/-!
DEFINITION. The meanings of the timer and keypad instructions (44_timer_key.md).
-/

namespace Sys2Proof.Machine

/-- Ex9E `SKP Vx` (R97). -/
def execSkp (x : RegNum) (s : State) : Host.Outcome State Fault Refusal := .next (s.skipIf (s.keyPressed (s.v x)))

/-- ExA1 `SKNP Vx` (R98). -/
def execSknp (x : RegNum) (s : State) : Host.Outcome State Fault Refusal := .next (s.skipIf (!s.keyPressed (s.v x)))

/-- Fx07 `LD Vx, DT` (R99). -/
def execLdVxDt (x : RegNum) (s : State) : Host.Outcome State Fault Refusal := .next (s.setV x s.delayTimer)

/-- Fx0A `LD Vx, K` (R100): with no key held pc goes back to pc0, so the instruction runs again. -/
def execLdVxK (x : RegNum) (s : State) : Host.Outcome State Fault Refusal :=
  match s.leastKey with
  | some k => .next (s.setV x (BitVec.ofNat 8 k))
  | none => .next (s.setPc s.pc0)

/-- Fx15 `LD DT, Vx` (R101). -/
def execLdDtVx (x : RegNum) (s : State) : Host.Outcome State Fault Refusal := .next (s.setDelay (s.v x))

/-- Fx18 `LD ST, Vx` (R102). -/
def execLdStVx (x : RegNum) (s : State) : Host.Outcome State Fault Refusal := .next (s.setSound (s.v x))

end Sys2Proof.Machine
end

