-- ==== Sys2Proof/Machine/Cycle.lean ====
section
/-!
DEFINITION. The operation cycle(): its next state and the event it returns (45_host_operations.md R104,
60_exceptions.md R121, R131).
-/

namespace Sys2Proof.Machine

/-- The numeric code of an event (60_exceptions.md R121). -/
def eventCode (e : Event) : Nat :=
  match e with
  | .idle => 0
  | .executed => 1
  | .breakpointHit _ => 2
  | .unknownOpcode _ _ => 3
  | .stackOverflow _ => 4
  | .stackUnderflow _ => 5

/-- The event of an instruction executed with pc already advanced: a stack fault of 2nnn or 00EE, else Executed
(60_exceptions.md R122, R125, R126). -/
def execEvent (i : Instr) (s : State) : Event :=
  match i with
  | .call _ => if s.sp.val < 16 then .executed else .stackOverflow s.pc0
  | .ret => if 0 < s.sp.val then .executed else .stackUnderflow s.pc0
  | _ => .executed

/-- The next state of `cycle()` (R104): nothing while Halted; a halt at a breakpoint, before any fetch; else fetch,
advance pc, decode, and execute, an unrecognised word having no further effect. -/
def cycle (s : State) : Host.Outcome State Fault Refusal :=
  if s.running = false then .next s
  else if s.pc ∈ s.breakpoints then .next (s.setRunning false)
  else
    match decode s.fetchWord with
    | .ok i => exec i s.advancePc
    | .error _ => .next s.advancePc

/-- The event `cycle()` returns (R104, 60_exceptions.md R131). -/
def cycleEvent (s : State) : Event :=
  if s.running = false then .idle
  else if s.pc ∈ s.breakpoints then .breakpointHit s.pc
  else
    match decode s.fetchWord with
    | .ok i => execEvent i s.advancePc
    | .error _ => .unknownOpcode s.pc s.fetchWord

end Sys2Proof.Machine
end

