-- ==== Sys2Proof/Machine/Step.lean ====
section
/-!
DEFINITION. The step of the machine, and the placing of one word where the next step fetches.
-/

namespace Sys2Proof.Machine

/-- One step of the engine: one `cycle()` (45_host_operations.md R104). -/
def step (s : State) : Host.Outcome State Fault Refusal := cycle s

/-- The state with the word whose low `nbits` bits are those of `w` (numbered as spec/opcode_table.json numbers them)
stored where `step` fetches next, Running, with no breakpoint there. Log entry 2. -/
def State.withFetchWord (s : State) (nbits w : Nat) : State := s.placeWord (BitVec.ofNat 16 (w % 2 ^ nbits))

end Sys2Proof.Machine
end

