-- ==== Sys2Proof/Machine/HostOps.lean ====
section
/-!
DEFINITION. The operations of the host interface (45_host_operations.md, 70_reset_and_hazards.md): their arguments, their
next states, what they return, and schedules of them (00_scope.md R11, R12). Every operation is atomic and total.
-/

namespace Sys2Proof.Machine

/-- A saved state as a state load receives it, before it is validated: pixels and key bits as numbers, the stack pointer
unbounded, the pixels in the linear order `py * 64 + px` (43_display.md R93), memory as its 4096 bytes
(70_reset_and_hazards.md R149). Log entry 13. -/
structure Snapshot where
  /-- The 4096 bytes of memory, from address 0. -/
  memory : List Byte
  /-- V0 to VF. -/
  registers : Vector Byte 16
  /-- I. -/
  index : Word
  /-- The program counter. -/
  pc : Word
  /-- The return addresses. -/
  stack : Vector Word 16
  /-- The stack pointer, which must be at most 16. -/
  sp : Nat
  /-- DT. -/
  delayTimer : Byte
  /-- ST. -/
  soundTimer : Byte
  /-- The 2048 pixels, each of which must be 0 or 1. -/
  pixels : List Nat
  /-- The changed flag. -/
  changed : Bool
  /-- The 16 key bits, each of which must be 0 or 1. -/
  keys : List Nat
  /-- The breakpoints, in any order. -/
  breakpoints : List Word
  /-- Running or Halted. -/
  running : Bool
  /-- The opaque seed of the random source. -/
  seed : Nat
  /-- The fault latch. -/
  fault : FaultCode
  deriving DecidableEq, Repr

/-- The validity of a loaded state (70_reset_and_hazards.md R149): `0 <= sp <= 16`, pixels in {0, 1}, key bits in {0, 1};
and the lists have the lengths of what they hold. -/
abbrev Snapshot.wf (p : Snapshot) : Prop :=
  p.memory.length = Config.memSize ∧ p.sp ≤ Config.stackDepth ∧
    (p.pixels.length = 2048 ∧ ∀ b ∈ p.pixels, b < 2) ∧ (p.keys.length = 16 ∧ ∀ b ∈ p.keys, b < 2)

/-- The pixels of a list of linear indices that are set in a list of pixel values. -/
def litPixels (pixels : List Nat) : List (Fin 64 × Fin 32) :=
  ((List.range 2048).filter (fun i => pixels.getD i 0 == 1)).map (fun i => (Fin.ofNat 64 i, Fin.ofNat 32 (i / 64)))

/-- The framebuffer whose set pixels are those of a list of pixel values in linear order (43_display.md R93). -/
def framebufferOf (pixels : List Nat) : Framebuffer :=
  (litPixels pixels).foldl (fun fb p => fb.flip p.1 p.2) Framebuffer.clear

/-- Every state element at once from a valid snapshot (70_reset_and_hazards.md R149). Only the count of draws since
power-on, which is the model's own, goes on: a state load brings back no earlier draw. -/
def State.load (s : State) (p : Snapshot) : State where
  memory := Memory.writeBytes [] 0 p.memory
  registers := p.registers
  index := p.index
  pc := p.pc
  stack := p.stack
  sp := Fin.ofNat 17 p.sp
  delayTimer := p.delayTimer
  soundTimer := p.soundTimer
  framebuffer := framebufferOf p.pixels
  changed := p.changed
  keys := Vector.ofFn (fun k : Fin 16 => p.keys.getD k.val 0 == 1)
  breakpoints := p.breakpoints.foldl Breakpoints.add []
  running := p.running
  rng := ⟨p.seed, s.rng.draws⟩
  fault := p.fault

/-- `reset(seed)` (70_reset_and_hazards.md R143): every element at its reset value but `breakpoints`, which keeps its
members, and `rng`, which is re-seeded; the count of draws since power-on, the model's own, goes on (log entry 3). -/
def State.resetOp (s : State) (seed : Nat) : State :=
  { State.reset with breakpoints := s.breakpoints, rng := ⟨seed, s.rng.draws⟩ }

/-- `loadROM(bytes)` (70_reset_and_hazards.md R146, R147): the bytes from 0x200 up and `running`, or nothing at all when
the ROM is too large. -/
def State.loadRom (s : State) (rom : List Byte) : State :=
  if romFits rom then (s.setMemory (Memory.writeBytes s.memory Config.progBase rom)).setRunning true else s

/-- `tick()` (45_host_operations.md R106): both timers down by one, not below 0, and only while Running. -/
def State.tick (s : State) : State :=
  if s.running then (s.setDelay (countDown s.delayTimer)).setSound (countDown s.soundTimer) else s

/-- `keyDown(k)` and `keyUp(k)` (45_host_operations.md R107, R108): an integer outside 0 to 15 is ignored. -/
def State.reportKey (s : State) (k : Int) (down : Bool) : State :=
  if 0 ≤ k ∧ k ≤ 15 then s.setKey (Fin.ofNat 16 k.toNat) down else s

/-- `sound_active` (45_host_operations.md R117). -/
def State.soundActive (s : State) : Bool := s.soundTimer != 0

/-- What a host may read without changing anything (45_host_operations.md R116, R117, R118). -/
inductive Accessor where
  /-- DT. -/
  | delayTimer
  /-- ST. -/
  | soundTimer
  /-- The run flag. -/
  | running
  /-- The changed flag. -/
  | changed
  /-- The fault latch. -/
  | fault
  /-- The program counter. -/
  | pc
  /-- I. -/
  | index
  /-- The stack pointer. -/
  | sp
  /-- The sixteen V registers. -/
  | registers
  /-- The sixteen stack entries. -/
  | stack
  /-- The sixteen key bits. -/
  | keys
  /-- The breakpoint set. -/
  | breakpoints
  /-- The read-only framebuffer snapshot. -/
  | framebuffer
  /-- The output `sound_active`. -/
  | soundActive
  deriving DecidableEq, Repr

/-- The operations a host invokes (00_scope.md R11, 45_host_operations.md section 1), and the state load of
70_reset_and_hazards.md R149. -/
inductive HostOp where
  /-- `cycle()` (R104). -/
  | cycle
  /-- `tick()` (R106). -/
  | tick
  /-- `keyDown(k)` (R107). -/
  | keyDown (k : Int)
  /-- `keyUp(k)` (R108). -/
  | keyUp (k : Int)
  /-- `setBreakpoint(addr)` (R109). -/
  | setBreakpoint (addr : Word)
  /-- `clearBreakpoint(addr)` (R110). -/
  | clearBreakpoint (addr : Word)
  /-- `pause()` (R111). -/
  | pause
  /-- `resume()` (R112). -/
  | resume
  /-- `hardStop()` (R113). -/
  | hardStop
  /-- `takeChangedFramebuffer()` (R114). -/
  | takeChangedFramebuffer
  /-- `clearChanged()` (R115). -/
  | clearChanged
  /-- A read accessor (R116, R117, R118). -/
  | read (what : Accessor)
  /-- `reset(seed)` (R143). -/
  | reset (seed : Nat)
  /-- `loadROM(bytes)` (R146). -/
  | loadRom (rom : List Byte)
  /-- A state load (R149). -/
  | load (snapshot : Snapshot)
  deriving DecidableEq, Repr

/-- What an operation returns to the host. -/
inductive Response where
  /-- Nothing. -/
  | nothing
  /-- The event of a `cycle()`. -/
  | event (e : Event)
  /-- Ok of a `loadROM` (70_reset_and_hazards.md R146), and of a successful state load, for which the spec names no value
  (DESIGN CHOICE, log entry 13). -/
  | ok
  /-- RomTooLarge (60_exceptions.md R128). -/
  | romTooLarge
  /-- InvalidSnapshot (60_exceptions.md R128). -/
  | invalidSnapshot
  /-- An optional copy of the framebuffer (45_host_operations.md R114). -/
  | taken (fb : Option Framebuffer)
  /-- A copy of a byte. -/
  | byte (b : Byte)
  /-- A copy of a bit. -/
  | bit (b : Bool)
  /-- A copy of a 16-bit value. -/
  | word (a : Word)
  /-- A copy of the stack pointer. -/
  | count (n : Nat)
  /-- A copy of the fault latch. -/
  | code (f : FaultCode)
  /-- A copy of the V registers. -/
  | bytes (v : Vector Byte 16)
  /-- A copy of the stack. -/
  | words (v : Vector Word 16)
  /-- A copy of the key bits. -/
  | bits (v : Vector Bool 16)
  /-- A copy of the breakpoint set. -/
  | addresses (bp : List Word)
  /-- A copy of the framebuffer. -/
  | pixels (fb : Framebuffer)
  deriving DecidableEq, Repr

/-- The value a read accessor hands out (45_host_operations.md R116, R117, R118). -/
def Accessor.get (a : Accessor) (s : State) : Response :=
  match a with
  | .delayTimer => .byte s.delayTimer
  | .soundTimer => .byte s.soundTimer
  | .running => .bit s.running
  | .changed => .bit s.changed
  | .fault => .code s.fault
  | .pc => .word s.pc
  | .index => .word s.index
  | .sp => .count s.sp.val
  | .registers => .bytes s.registers
  | .stack => .words s.stack
  | .keys => .bits s.keys
  | .breakpoints => .addresses s.breakpoints
  | .framebuffer => .pixels s.framebuffer
  | .soundActive => .bit s.soundActive

/-- The next state of an operation. -/
def operate (op : HostOp) (s : State) : Host.Outcome State Fault Refusal :=
  match op with
  | .cycle => step s
  | .tick => .next s.tick
  | .keyDown k => .next (s.reportKey k true)
  | .keyUp k => .next (s.reportKey k false)
  | .setBreakpoint a => .next (s.setBreakpoints (Breakpoints.add s.breakpoints a))
  | .clearBreakpoint a => .next (s.setBreakpoints (Breakpoints.remove s.breakpoints a))
  | .pause => .next (s.setRunning false)
  | .resume => .next s.resume
  | .hardStop => .next (s.setRunning false)
  | .takeChangedFramebuffer => .next (if s.changed then s.clearChanged else s)
  | .clearChanged => .next s.clearChanged
  | .read _ => .next s
  | .reset seed => .next (s.resetOp seed)
  | .loadRom rom => .next (s.loadRom rom)
  | .load p => .next (if p.wf then s.load p else s)

/-- What an operation returns, from the state it starts in. That a successful state load returns Ok is a DESIGN CHOICE, log
entry 13: the spec gives the failure value only (60_exceptions.md R128, 70_reset_and_hazards.md R149). -/
def response (op : HostOp) (s : State) : Response :=
  match op with
  | .cycle => .event (cycleEvent s)
  | .takeChangedFramebuffer => .taken (if s.changed then some s.framebuffer else none)
  | .read a => a.get s
  | .loadRom rom => if romFits rom then .ok else .romTooLarge
  | .load p => if p.wf then .ok else .invalidSnapshot
  | .tick | .keyDown _ | .keyUp _ | .setBreakpoint _ | .clearBreakpoint _ | .pause | .resume | .hardStop
  | .clearChanged | .reset _ => .nothing

/-- A schedule: operations one at a time, in order, each from the state the one before it left (00_scope.md R12,
20_memory.md R46). -/
def runSchedule : List HostOp → State → Host.Outcome State Fault Refusal
  | [], s => .next s
  | op :: ops, s =>
    match operate op s with
    | .next t => runSchedule ops t
    | .fault f => .fault f
    | .refused r => .refused r

/-- What the operations of a schedule return, one response each, for as long as it runs. -/
def transcript : List HostOp → State → List Response
  | [], _ => []
  | op :: ops, s =>
    response op s ::
      match operate op s with
      | .next t => transcript ops t
      | .fault _ => []
      | .refused _ => []

end Sys2Proof.Machine
end

