-- ==== Sys2Proof/Safety.lean ====
section
/-!
DEFINITION. The terms claims are stated in: the data invariant of a state, what two states agree on, what it is for an
instruction to complete, and what a good final state is.
-/

namespace Sys2Proof.Machine

/-- The invariant of a state's own data: memory and the breakpoint set in their canonical forms. The other bounds the
spec states (`0 <= sp <= 16`, bits in 0 and 1, values in 8 and 16 bits) hold by the types of the fields. -/
abbrev State.wf (s : State) : Prop := Memory.wf s.memory ∧ Breakpoints.wf s.breakpoints

/-- The fifteen elements of state of 10_state.md R32, by name. -/
inductive Element where
  | memory | registers | index | pc | stack | sp | delayTimer | soundTimer | framebuffer | changed | keys | breakpoints
  | running | rng | fault
  deriving DecidableEq, Repr

/-- Two states agree on an element: every byte of memory, every register, every stack entry, every pixel, every key and
every breakpoint address, each as the model reads it. -/
def Element.same (e : Element) (s t : State) : Prop :=
  match e with
  | .memory => ∀ a : Nat, Memory.read t.memory a = Memory.read s.memory a
  | .registers => ∀ r : RegNum, t.v r = s.v r
  | .index => t.index = s.index
  | .pc => t.pc = s.pc
  | .stack => ∀ k : Fin 16, t.stack[k.val] = s.stack[k.val]
  | .sp => t.sp = s.sp
  | .delayTimer => t.delayTimer = s.delayTimer
  | .soundTimer => t.soundTimer = s.soundTimer
  | .framebuffer => ∀ (px : Fin 64) (py : Fin 32), t.framebuffer.pixel px py = s.framebuffer.pixel px py
  | .changed => t.changed = s.changed
  | .keys => ∀ k : Nat, t.keyHeld k = s.keyHeld k
  | .breakpoints => ∀ a : Word, a ∈ t.breakpoints ↔ a ∈ s.breakpoints
  | .running => t.running = s.running
  | .rng => t.rng = s.rng
  | .fault => t.fault = s.fault

/-- The frame of a change of state: everything but the named elements is as it was. -/
def UnchangedExcept (written : List Element) (s t : State) : Prop := ∀ e : Element, e ∉ written → e.same s t

/-- The instruction completes in `t` with the event Executed (60_exceptions.md R122). Its state `s` has pc already
advanced, so an instruction that leaves pc alone ends at pc0 + 2 (10_state.md R18 (a)). -/
def Completes (i : Instr) (s t : State) : Prop := exec i s = .next t ∧ execEvent i s = .executed

/-- The instruction sets one general register to a value of the state it starts in, and does nothing else but complete. -/
def WritesRegister (i : Instr) (x : RegNum) (value : State → Nat) : Prop :=
  ∀ s : State, ∃ t : State, Completes i s t ∧ (t.v x).toNat = value s ∧ (∀ r, r ≠ x → t.v r = s.v r) ∧
    UnchangedExcept [.registers] s t

/-- The instruction sets I to a value of the state it starts in, and does nothing else but complete. -/
def SetsIndex (i : Instr) (value : State → Nat) : Prop :=
  ∀ s : State, ∃ t : State, Completes i s t ∧ t.index.toNat = value s ∧ UnchangedExcept [.index] s t

/-- The instruction skips the next one exactly when a condition holds, and does nothing else but complete. -/
def Skips (i : Instr) (condition : State → Prop) : Prop :=
  ∀ s : State, ∃ t : State, Completes i s t ∧ (condition s → t.pc = s.pc + 2) ∧ (¬condition s → t.pc = s.pc) ∧
    UnchangedExcept [.pc] s t

/-- A flag-writing register instruction, in numbers: VF receives 1 or 0 by `flag` of the old Vx and Vy, then Vx receives
`result` of Vx and Vy, each of which is the new flag where it is VF (41_alu.md R84). -/
def WritesFlagThenResult (i : Instr) (x y : RegNum) (flag : Nat → Nat → Prop) (result : Nat → Nat → Nat) : Prop :=
  ∀ s : State, ∃ (t : State) (f : Nat), Completes i s t ∧
    (flag (s.v x).toNat (s.v y).toNat → f = 1) ∧ (¬flag (s.v x).toNat (s.v y).toNat → f = 0) ∧
    (t.v x).toNat = result (if x = 15 then f else (s.v x).toNat) (if y = 15 then f else (s.v y).toNat) ∧
    (x ≠ 15 → (t.v 15).toNat = f) ∧ (∀ r, r ≠ x → r ≠ 15 → t.v r = s.v r) ∧ UnchangedExcept [.registers] s t

/-- What taking a stack fault leaves, for a state whose pc is already advanced (60_exceptions.md R124). -/
def FaultEntry (f : FaultCode) (s t : State) : Prop :=
  t.pc = s.pc - 2 ∧ t.running = false ∧ t.fault = f ∧ UnchangedExcept [.pc, .running, .fault] s t

/-- A set bit of the n-row sprite at I, drawn at (Vx, Vy), lies on pixel (px, py) (43_display.md R95, R96). -/
def SpriteCovers (s : State) (x y : RegNum) (n : Imm4) (px : Fin 64) (py : Fin 32) : Prop :=
  ∃ row < n.toNat, ∃ col < 8,
    (Memory.read s.memory (s.index.toNat + row)).toNat / 2 ^ (7 - col) % 2 = 1 ∧
      px.val = ((s.v x).toNat + col) % 64 ∧ py.val = ((s.v y).toNat + row) % 32

/-- The elements an instruction may change, pc meaning a change beyond the advance every instruction makes
(10_state.md section 1, columns "written by"). -/
def mayWrite : Instr → List Element
  | .cls => [.framebuffer, .changed]
  | .ret => [.pc, .sp, .running, .fault]
  | .jp _ | .jpV0 _ => [.pc]
  | .call _ => [.pc, .stack, .sp, .running, .fault]
  | .seImm _ _ | .sneImm _ _ | .seReg _ _ | .sneReg _ _ | .skp _ | .sknp _ => [.pc]
  | .ldImm _ _ | .addImm _ _ | .ldReg _ _ | .orReg _ _ | .andReg _ _ | .xorReg _ _ | .addReg _ _ | .sub _ _
  | .shr _ _ | .subn _ _ | .shl _ _ | .ldVxDt _ => [.registers]
  | .rnd _ _ => [.registers, .rng]
  | .drw _ _ _ => [.framebuffer, .changed, .registers]
  | .ldI _ | .addI _ | .ldF _ => [.index]
  | .ldVxK _ => [.registers, .pc]
  | .ldDtVx _ => [.delayTimer]
  | .ldStVx _ => [.soundTimer]
  | .ldB _ => [.memory]
  | .stRegs _ => [.memory, .index]
  | .ldRegs _ => [.registers, .index]

/-- The six instructions that write VF as a flag (10_state.md R15). -/
def writesFlag : Instr → Bool
  | .addReg _ _ | .sub _ _ | .shr _ _ | .subn _ _ | .shl _ _ | .drw _ _ _ => true
  | _ => false

/-- The register an instruction names as its destination Vx, for Fx65 the last of the registers it loads. -/
def destination : Instr → Option RegNum
  | .ldImm x _ | .addImm x _ | .ldReg x _ | .orReg x _ | .andReg x _ | .xorReg x _ | .addReg x _ | .sub x _ | .shr x _
  | .subn x _ | .shl x _ | .rnd x _ | .ldVxDt x | .ldVxK x | .ldRegs x => some x
  | _ => none

/-- A state that counts as a good one to end in: no stack fault is latched (10_state.md R29). -/
def State.good (s : State) : Prop := s.fault = .none

end Sys2Proof.Machine
end

