-- ==== Sys2Proof/Certificates/Slice0/Obligations.lean ====
section
/-!
DEFINITION. The statements for the provers, from the numbered rules of spec/. Many of those rules carry a decision or an
inference that the spec marks as its own; the docstring of a statement that rests on one names it (D<n> of
92_eei_decisions.md), and log entry 8 lists them all. In a statement about `exec i s` the state
`s` has pc already advanced by 2 (00_scope.md section 7); in a statement about `step s` it has not.
-/

open Sys2Proof Sys2Proof.Machine

/-! ### Encoding -/

/-- A few words of 95_test_vectors.md and of the rules' examples, read field by field (30_encoding.md R52, R56). That
0x01E0 and 0x5121 are no instructions is the spec's own decision D22 (log entry 8); that the word 0x81F6 keeps its y in
the instruction it decodes to is the model's choice, log entry 14. -/
def Obligations.WordsFromTheSpecDecode : Prop :=
  decode 0x00E0 = .ok .cls ∧ decode 0x00EE = .ok .ret ∧ decode 0x1234 = .ok (.jp 0x234) ∧
    decode 0x6A55 = .ok (.ldImm 10 0x55) ∧ decode 0x81F6 = .ok (.shr 1 15) ∧ decode 0xA2F0 = .ok (.ldI 0x2F0) ∧
    decode 0xD015 = .ok (.drw 0 1 5) ∧ decode 0xE2A1 = .ok (.sknp 2) ∧ decode 0xF50A = .ok (.ldVxK 5) ∧
    decode 0xF155 = .ok (.stRegs 1) ∧ decode 0x01E0 = .error .zeroSpace ∧ decode 0x5121 = .error .fiveSpace

/-- No bit of an encoding is dropped: decoding an instruction's word gives it back (30_encoding.md R53, R55, R56), the y
of 8xy6 and 8xyE included, which the model keeps in the syntax (log entry 14). -/
def Obligations.DecodeOfEncode : Prop := ∀ i : Instr, decode (encode i) = .ok i

/-- Each recognised word decodes to one instruction of the syntax, whose encoding gives the word back (30_encoding.md
R53, R56). For 8xy6 and 8xyE this is the model's choice, log entry 14: the syntax keeps y, while R60 has all sixteen
values of y select one instruction. -/
def Obligations.EncodeOfDecode : Prop := ∀ (w : Word) (i : Instr), decode w = .ok i → encode i = w

/-- 30_encoding.md R55 (with the spec's own decision D22): a word is recognised if and only if it matches one of the 34
patterns, it matches at most one, and the instruction it decodes to is that row's. -/
def Obligations.RecognisedWordsDecode : Prop :=
  ∀ w : Word, ((∃ i, decode w = .ok i) ↔ recognised w = true) ∧
    opcodeMap.Pairwise (fun r q => ¬(r.accepts w = true ∧ q.accepts w = true)) ∧
    (∀ i, decode w = .ok i → i.row.accepts w = true)

/-- 30_encoding.md R57 (the spec's own inference from R55 and R56, with D22): the six spaces of unrecognised words. -/
def Obligations.UnrecognisedSpaces : Prop :=
  ∀ w : Word, (∃ e, decode w = .error e) ↔
    (w.toNat / 4096 = 0 ∧ w.toNat ≠ 0x00E0 ∧ w.toNat ≠ 0x00EE) ∨
      (w.toNat / 4096 = 5 ∧ w.toNat % 16 ≠ 0) ∨
      (w.toNat / 4096 = 8 ∧ w.toNat % 16 ∈ [0x8, 0x9, 0xA, 0xB, 0xC, 0xD, 0xF]) ∨
      (w.toNat / 4096 = 9 ∧ w.toNat % 16 ≠ 0) ∨
      (w.toNat / 4096 = 0xE ∧ w.toNat % 256 ∉ [0x9E, 0xA1]) ∨
      (w.toNat / 4096 = 0xF ∧ w.toNat % 256 ∉ [0x07, 0x0A, 0x15, 0x18, 0x1E, 0x29, 0x33, 0x55, 0x65])

/-! ### The step -/

/-- 45_host_operations.md R104 steps 3 to 8 (with the spec's own decision D18): a Running machine whose pc is no
breakpoint and whose word decodes to `i` executes `i` in the state with pc advanced by 2, and returns its event. -/
def Obligations.StepRunsDecodedInstruction : Prop :=
  ∀ (s : State) (i : Instr), s.running = true → s.pc ∉ s.breakpoints → decode s.fetchWord = .ok i →
    step s = exec i { s with pc := s.pc + 2 } ∧ cycleEvent s = execEvent i { s with pc := s.pc + 2 }

/-- 20_memory.md R37: the fetched word is big-endian, and each of its two addresses is reduced mod 4096. -/
def Obligations.FetchIsBigEndian : Prop :=
  ∀ s : State, s.fetchWord.toNat =
    (Memory.lookup s.memory (s.pc.toNat % 4096)).toNat * 256 + (Memory.lookup s.memory ((s.pc.toNat + 1) % 4096)).toNat

/-- 60_exceptions.md R123 (with the spec's own decisions D22 and D29): an unrecognised word advances pc by 2, changes
nothing else, and is reported. -/
def Obligations.UnrecognisedWordOnlyAdvances : Prop :=
  ∀ s : State, s.running = true → s.pc ∉ s.breakpoints → recognised s.fetchWord = false →
    ∃ t : State, step s = .next t ∧ t.pc = s.pc + 2 ∧ UnchangedExcept [.pc] s t ∧
      cycleEvent s = .unknownOpcode s.pc s.fetchWord

/-- 60_exceptions.md R127, 45_host_operations.md R104 (with the spec's own decision D18): at a breakpoint the engine
halts before the fetch, nothing else changes, the fault latch included, and a resume without removing the breakpoint
brings back the same state, so the next cycle halts again. -/
def Obligations.BreakpointHaltsBeforeFetch : Prop :=
  ∀ s : State, s.running = true → s.pc ∈ s.breakpoints →
    ∃ t : State, step s = .next t ∧ t.running = false ∧ UnchangedExcept [.running] s t ∧
      cycleEvent s = .breakpointHit s.pc ∧ operate .resume t = .next s

/-- 60_exceptions.md R122, R139 and 45_host_operations.md R106 (with the spec's own decision D17): a Halted machine does
not change by cycles and ticks. -/
def Obligations.HaltedMachineStandsStill : Prop :=
  ∀ s : State, s.running = false →
    step s = .next s ∧ cycleEvent s = .idle ∧ operate .cycle s = .next s ∧ operate .tick s = .next s

/-- 60_exceptions.md R131 (the spec's own inference from R104, with D1, D2, D19): the order of the checks within one
cycle, by the event it returns, and the code of that event (R121). -/
def Obligations.EventPriority : Prop :=
  ∀ s : State,
    (s.running = false → cycleEvent s = .idle ∧ eventCode (cycleEvent s) = 0) ∧
    (s.running = true → s.pc ∈ s.breakpoints →
      cycleEvent s = .breakpointHit s.pc ∧ eventCode (cycleEvent s) = 2) ∧
    (s.running = true → s.pc ∉ s.breakpoints → recognised s.fetchWord = false →
      cycleEvent s = .unknownOpcode s.pc s.fetchWord ∧ eventCode (cycleEvent s) = 3) ∧
    (∀ i, s.running = true → s.pc ∉ s.breakpoints → decode s.fetchWord = .ok i →
      ((∃ nnn, i = .call nnn) ∧ s.sp.val = 16 → cycleEvent s = .stackOverflow s.pc ∧ eventCode (cycleEvent s) = 4) ∧
      (i = .ret ∧ s.sp.val = 0 → cycleEvent s = .stackUnderflow s.pc ∧ eventCode (cycleEvent s) = 5) ∧
      (¬((∃ nnn, i = .call nnn) ∧ s.sp.val = 16) → ¬(i = .ret ∧ s.sp.val = 0) →
        cycleEvent s = .executed ∧ eventCode (cycleEvent s) = 1))

/-- 45_host_operations.md R105 (c), R120: every cycle and every schedule of operations ends in a state. -/
def Obligations.EverythingTerminates : Prop :=
  (∀ s : State, ∃ t : State, step s = .next t) ∧
    ∀ (ops : List HostOp) (s : State), ∃ t : State, runSchedule ops s = .next t

/-! ### Control transfer -/

/-- 40_flow.md R65. -/
def Obligations.JumpSetsPc : Prop :=
  ∀ (nnn : Imm12) (s : State), ∃ t : State, Completes (.jp nnn) s t ∧ t.pc.toNat = nnn.toNat ∧ UnchangedExcept [.pc] s t

/-- 40_flow.md R71: the sum keeps all its bits, whatever it is. -/
def Obligations.JumpWithOffsetAddsVZero : Prop :=
  ∀ (nnn : Imm12) (s : State), ∃ t : State, Completes (.jpV0 nnn) s t ∧
    t.pc.toNat = (nnn.toNat + (s.v 0).toNat) % 65536 ∧ t.pc.toNat = nnn.toNat + (s.v 0).toNat ∧ UnchangedExcept [.pc] s t

/-- 40_flow.md R66, 60_exceptions.md R124, R125: a call pushes the return address, or faults when 16 are held. The fault
is the spec's own choice of policy (D1, D3). -/
def Obligations.CallPushesOrOverflows : Prop :=
  ∀ (nnn : Imm12) (s : State),
    (∀ _ : s.sp.val < 16, ∃ t : State, Completes (.call nnn) s t ∧ t.stack[s.sp.val] = s.pc ∧
      (∀ k : Fin 16, k.val ≠ s.sp.val → t.stack[k.val] = s.stack[k.val]) ∧ t.sp.val = s.sp.val + 1 ∧
      t.pc.toNat = nnn.toNat ∧ UnchangedExcept [.stack, .sp, .pc] s t) ∧
    (s.sp.val = 16 → ∃ t : State, exec (.call nnn) s = .next t ∧ FaultEntry .stackOverflow s t ∧
      execEvent (.call nnn) s = .stackOverflow (s.pc - 2))

/-- 40_flow.md R64, 60_exceptions.md R124, R126: a return pops the most recent address, which stays in the array, or
faults when none is held. The fault is the spec's own choice of policy (D2, D3), that the entry stays is D30. -/
def Obligations.ReturnPopsOrUnderflows : Prop :=
  ∀ s : State,
    (∀ _ : 0 < s.sp.val, ∃ t : State, Completes .ret s t ∧ t.pc = s.stack[s.sp.val - 1] ∧
      t.sp.val = s.sp.val - 1 ∧ UnchangedExcept [.sp, .pc] s t) ∧
    (s.sp.val = 0 → ∃ t : State, exec .ret s = .next t ∧ FaultEntry .stackUnderflow s t ∧
      execEvent .ret s = .stackUnderflow (s.pc - 2))

/-- 40_flow.md R63: a call and then a return, wherever the return stands, go on after the call with the stack pointer as
before it. -/
def Obligations.CallThenReturn : Prop :=
  ∀ (nnn : Imm12) (s : State), s.sp.val < 16 → ∃ t : State, exec (.call nnn) s = .next t ∧
    ∀ p : Word, ∃ u : State, exec .ret { t with pc := p } = .next u ∧ u.pc = s.pc ∧ u.sp = s.sp

/-- 40_flow.md R67, R68. -/
def Obligations.SkipsOnImmediate : Prop :=
  ∀ (x : RegNum) (nn : Byte), Skips (.seImm x nn) (fun s => s.v x = nn) ∧ Skips (.sneImm x nn) (fun s => s.v x ≠ nn)

/-- 40_flow.md R69, R70. -/
def Obligations.SkipsOnRegisters : Prop :=
  ∀ x y : RegNum, Skips (.seReg x y) (fun s => s.v x = s.v y) ∧ Skips (.sneReg x y) (fun s => s.v x ≠ s.v y)

/-! ### Registers and flags -/

/-- 41_alu.md R73, R75. -/
def Obligations.LoadsCopyTheirSource : Prop :=
  (∀ (x : RegNum) (nn : Byte), WritesRegister (.ldImm x nn) x (fun _ => nn.toNat)) ∧
    ∀ x y : RegNum, WritesRegister (.ldReg x y) x (fun s => (s.v y).toNat)

/-- 41_alu.md R74: the sum wraps and no other register, VF among them, is written. -/
def Obligations.AddImmediateWraps : Prop :=
  ∀ (x : RegNum) (nn : Byte), WritesRegister (.addImm x nn) x (fun s => ((s.v x).toNat + nn.toNat) % 256)

/-- 41_alu.md R76, R77, R78: the logic operations, bit by bit, leave VF alone unless it is Vx. -/
def Obligations.LogicWorksBitwise : Prop :=
  ∀ (x y : RegNum) (s : State),
    (∃ t : State, Completes (.orReg x y) s t ∧
      (∀ k < 8, (t.v x).getLsbD k = ((s.v x).getLsbD k || (s.v y).getLsbD k)) ∧
      (∀ r, r ≠ x → t.v r = s.v r) ∧ UnchangedExcept [.registers] s t) ∧
    (∃ t : State, Completes (.andReg x y) s t ∧
      (∀ k < 8, (t.v x).getLsbD k = ((s.v x).getLsbD k && (s.v y).getLsbD k)) ∧
      (∀ r, r ≠ x → t.v r = s.v r) ∧ UnchangedExcept [.registers] s t) ∧
    (∃ t : State, Completes (.xorReg x y) s t ∧
      (∀ k < 8, (t.v x).getLsbD k = ((s.v x).getLsbD k != (s.v y).getLsbD k)) ∧
      (∀ r, r ≠ x → t.v r = s.v r) ∧ UnchangedExcept [.registers] s t)

/-- 41_alu.md R79: carry, then the sum mod 256, for every x and y. Where x or y is F the outcome is the spec's own
decision D5. -/
def Obligations.AddSetsCarry : Prop :=
  ∀ x y : RegNum, WritesFlagThenResult (.addReg x y) x y (fun a b => a + b > 255) (fun a b => (a + b) % 256)

/-- 41_alu.md R80, R82: the strict comparison, then the difference mod 256, for every x and y. Where x or y is F the
outcome is the spec's own decision D5. -/
def Obligations.SubtractionsCompareStrictly : Prop :=
  ∀ x y : RegNum,
    WritesFlagThenResult (.sub x y) x y (fun a b => a > b) (fun a b => (a + 256 - b) % 256) ∧
    WritesFlagThenResult (.subn x y) x y (fun a b => b > a) (fun a b => (b + 256 - a) % 256)

/-- 41_alu.md R81, R83: the bit shifted out, then Vx shifted by one, for every x, whatever y. Where x is F the outcome is
the spec's own decision D5. -/
def Obligations.ShiftsIgnoreVy : Prop :=
  ∀ x y : RegNum,
    WritesFlagThenResult (.shr x y) x y (fun a _ => a % 2 = 1) (fun a _ => a / 2) ∧
    WritesFlagThenResult (.shl x y) x y (fun a _ => a ≥ 128) (fun a _ => 2 * a % 256)

/-- 41_alu.md R84, the spec's own decision D5: every row of its table, in numbers. Where x is F, what remains in VF is
the result computed from the freshly written flag; where only y is F, the second operand is the freshly written flag. -/
def Obligations.FlagAsOperand : Prop :=
  ∀ s : State,
    (∀ y : RegNum, ∃ t4 t5 t6 t7 tE : State,
      exec (.addReg 15 y) s = .next t4 ∧ exec (.sub 15 y) s = .next t5 ∧ exec (.shr 15 y) s = .next t6 ∧
      exec (.subn 15 y) s = .next t7 ∧ exec (.shl 15 y) s = .next tE ∧
      (y ≠ 15 →
        (t4.v 15).toNat = ((if (s.v 15).toNat + (s.v y).toNat > 255 then 1 else 0) + (s.v y).toNat) % 256 ∧
        (t5.v 15).toNat = ((if (s.v 15).toNat > (s.v y).toNat then 1 else 0) + 256 - (s.v y).toNat) % 256 ∧
        (t7.v 15).toNat = ((s.v y).toNat + 256 - (if (s.v y).toNat > (s.v 15).toNat then 1 else 0)) % 256) ∧
      (y = 15 → (t4.v 15).toNat = (if 2 * (s.v 15).toNat > 255 then 2 else 0) ∧ (t5.v 15).toNat = 0 ∧
        (t7.v 15).toNat = 0) ∧
      (t6.v 15).toNat = 0 ∧ (tE.v 15).toNat = (if (s.v 15).toNat ≥ 128 then 2 else 0)) ∧
    (∀ x : RegNum, x ≠ 15 → ∃ t4 t5 t7 : State,
      exec (.addReg x 15) s = .next t4 ∧ exec (.sub x 15) s = .next t5 ∧ exec (.subn x 15) s = .next t7 ∧
      (t4.v 15).toNat = (if (s.v x).toNat + (s.v 15).toNat > 255 then 1 else 0) ∧
      (t4.v x).toNat = ((s.v x).toNat + (t4.v 15).toNat) % 256 ∧
      (t5.v 15).toNat = (if (s.v x).toNat > (s.v 15).toNat then 1 else 0) ∧
      (t5.v x).toNat = ((s.v x).toNat + 256 - (t5.v 15).toNat) % 256 ∧
      (t7.v 15).toNat = (if (s.v 15).toNat > (s.v x).toNat then 1 else 0) ∧
      (t7.v x).toNat = ((t7.v 15).toNat + 256 - (s.v x).toNat) % 256)

/-- 41_alu.md R85 (with the spec's own decision D16): the drawn byte, which is a free value, masked; exactly one draw;
nothing else changes. The first equation and the mask hold for every value of the free byte. That a draw is counted is
the model's way of making the next byte another free value (log entry 3). -/
def Obligations.RandomByteIsMasked : Prop :=
  ∀ (x : RegNum) (nn : Byte) (s : State), ∃ t : State, Completes (.rnd x nn) s t ∧
    t.v x = (s.randomByte &&& nn) ∧ (t.v x &&& ~~~nn) = 0 ∧ (∀ r, r ≠ x → t.v r = s.v r) ∧
    t.rng.draws = s.rng.draws + 1 ∧ t.rng.seed = s.rng.seed ∧ UnchangedExcept [.registers, .rng] s t

/-! ### I and memory -/

/-- 42_index_memory.md R86, R87: the immediate zero-extended; the sum wraps at 65536 only, and no flag is written. -/
def Obligations.IndexLoadAndAdd : Prop :=
  (∀ nnn : Imm12, SetsIndex (.ldI nnn) (fun _ => nnn.toNat)) ∧
    ∀ x : RegNum, SetsIndex (.addI x) (fun s => (s.index.toNat + (s.v x).toNat) % 65536)

/-- 42_index_memory.md R88: the glyph address, for every value of Vx (that Vx is not masked is the spec's own decision
D10). -/
def Obligations.GlyphAddressIsUnmasked : Prop :=
  ∀ x : RegNum, SetsIndex (.ldF x) (fun s => 0x050 + 5 * (s.v x).toNat)

/-- 42_index_memory.md R89: the three decimal digits at I, I + 1, I + 2, each address reduced mod 4096, and no other byte
and no register written. -/
def Obligations.DecimalDigitsStored : Prop :=
  ∀ (x : RegNum) (s : State), ∃ t : State, Completes (.ldB x) s t ∧
    (∀ a : Nat,
      (a % 4096 = s.index.toNat % 4096 → (Memory.read t.memory a).toNat = (s.v x).toNat / 100) ∧
      (a % 4096 = (s.index.toNat + 1) % 4096 → (Memory.read t.memory a).toNat = (s.v x).toNat / 10 % 10) ∧
      (a % 4096 = (s.index.toNat + 2) % 4096 → (Memory.read t.memory a).toNat = (s.v x).toNat % 10) ∧
      ((∀ k < 3, a % 4096 ≠ (s.index.toNat + k) % 4096) → Memory.read t.memory a = Memory.read s.memory a)) ∧
    UnchangedExcept [.memory] s t

/-- 42_index_memory.md R90: V0 to Vx at I upward, each address reduced mod 4096; I advanced by x + 1 mod 65536; no other
byte and no register written. -/
def Obligations.RegistersStored : Prop :=
  ∀ (x : RegNum) (s : State), ∃ t : State, Completes (.stRegs x) s t ∧
    (∀ (k : RegNum) (a : Nat), k.val ≤ x.val → a % 4096 = (s.index.toNat + k.val) % 4096 →
      Memory.read t.memory a = s.v k) ∧
    (∀ a : Nat, (∀ k : RegNum, k.val ≤ x.val → a % 4096 ≠ (s.index.toNat + k.val) % 4096) →
      Memory.read t.memory a = Memory.read s.memory a) ∧
    t.index.toNat = (s.index.toNat + x.val + 1) % 65536 ∧ UnchangedExcept [.memory, .index] s t

/-- 42_index_memory.md R91: V0 to Vx from I upward, each address reduced mod 4096; I advanced by x + 1 mod 65536; the
registers above Vx and all of memory as before. -/
def Obligations.RegistersLoaded : Prop :=
  ∀ (x : RegNum) (s : State), ∃ t : State, Completes (.ldRegs x) s t ∧
    (∀ k : RegNum, k.val ≤ x.val → t.v k = Memory.lookup s.memory ((s.index.toNat + k.val) % 4096)) ∧
    (∀ k : RegNum, x.val < k.val → t.v k = s.v k) ∧
    t.index.toNat = (s.index.toNat + x.val + 1) % 65536 ∧ UnchangedExcept [.registers, .index] s t

/-- 20_memory.md R49 (the spec's own inference): registers stored over the next instruction's two bytes are what the
next fetch reads, with no further action. -/
def Obligations.StoresAreFetchedNext : Prop :=
  ∀ (x : RegNum) (s : State), 1 ≤ x.val → s.index.toNat % 4096 = s.pc.toNat % 4096 →
    ∃ t : State, exec (.stRegs x) s = .next t ∧ t.pc = s.pc ∧
      t.fetchWord.toNat = (s.v 0).toNat * 256 + (s.v 1).toNat

/-! ### Display -/

/-- 43_display.md R94. -/
def Obligations.ClearTurnsEveryPixelOff : Prop :=
  ∀ s : State, ∃ t : State, Completes .cls s t ∧ (∀ px py, t.framebuffer.pixel px py = false) ∧ t.changed = true ∧
    UnchangedExcept [.framebuffer, .changed] s t

/-- 43_display.md R95, R96 (2) (with the spec's own decisions D6 and D7): the framebuffer is the old one XORed with the
wrapped sprite mask; VF is 1 exactly when the two share a set pixel; `changed` is set; I and memory are not written; n =
0 included. -/
def Obligations.DrawXorsTheSpriteMask : Prop :=
  ∀ (x y : RegNum) (n : Imm4) (s : State), ∃ t : State, Completes (.drw x y n) s t ∧
    (∀ px py, SpriteCovers s x y n px py → t.framebuffer.pixel px py = !s.framebuffer.pixel px py) ∧
    (∀ px py, ¬SpriteCovers s x y n px py → t.framebuffer.pixel px py = s.framebuffer.pixel px py) ∧
    ((∃ px py, SpriteCovers s x y n px py ∧ s.framebuffer.pixel px py = true) → t.v 15 = 1) ∧
    ((∀ px py, SpriteCovers s x y n px py → s.framebuffer.pixel px py = false) → t.v 15 = 0) ∧
    (∀ r, r ≠ 15 → t.v r = s.v r) ∧ t.changed = true ∧ UnchangedExcept [.framebuffer, .changed, .registers] s t

/-- 43_display.md R96 (3) (with the spec's own decision D7): the same sprite drawn twice restores the framebuffer, and on
a clear area a sprite with a set bit gives VF = 0 and then VF = 1. -/
def Obligations.DrawingTwiceRestores : Prop :=
  ∀ (x y : RegNum) (n : Imm4) (s : State), x ≠ 15 → y ≠ 15 →
    ∃ t u : State, exec (.drw x y n) s = .next t ∧ exec (.drw x y n) t = .next u ∧
      (∀ px py, u.framebuffer.pixel px py = s.framebuffer.pixel px py) ∧
      ((∀ px py, SpriteCovers s x y n px py → s.framebuffer.pixel px py = false) →
        (∃ px py, SpriteCovers s x y n px py) → t.v 15 = 0 ∧ u.v 15 = 1)

/-! ### Keys and timers -/

/-- 44_timer_key.md R97, R98, R103: the latch at this moment decides, and a number above 15 is no held key (the spec's
own decision D9). -/
def Obligations.KeySkipsReadTheLatch : Prop :=
  ∀ x : RegNum,
    Skips (.skp x) (fun s => ∃ k : Fin 16, (s.v x).toNat = k.val ∧ s.keys[k.val] = true) ∧
    Skips (.sknp x) (fun s => ¬∃ k : Fin 16, (s.v x).toNat = k.val ∧ s.keys[k.val] = true)

/-- 44_timer_key.md R100 (with the spec's own decision D11): the least held key, or the same instruction again. -/
def Obligations.KeyWaitTakesLeastHeldKey : Prop :=
  ∀ (x : RegNum) (s : State),
    (∀ k : Fin 16, s.keys[k.val] = true → (∀ j : Fin 16, j < k → s.keys[j.val] = false) →
      ∃ t : State, Completes (.ldVxK x) s t ∧ (t.v x).toNat = k.val ∧ (∀ r, r ≠ x → t.v r = s.v r) ∧
        UnchangedExcept [.registers] s t) ∧
    ((∀ k : Fin 16, s.keys[k.val] = false) →
      ∃ t : State, Completes (.ldVxK x) s t ∧ t.pc = s.pc - 2 ∧ UnchangedExcept [.pc] s t)

/-- 44_timer_key.md R99, R101, R102. -/
def Obligations.TimerAccess : Prop :=
  ∀ x : RegNum,
    WritesRegister (.ldVxDt x) x (fun s => s.delayTimer.toNat) ∧
    (∀ s : State, ∃ t : State, Completes (.ldDtVx x) s t ∧ t.delayTimer = s.v x ∧ UnchangedExcept [.delayTimer] s t) ∧
    (∀ s : State, ∃ t : State, Completes (.ldStVx x) s t ∧ t.soundTimer = s.v x ∧ t.soundActive = (s.v x != 0) ∧
      UnchangedExcept [.soundTimer] s t)

/-! ### The whole machine -/

/-- 10_state.md section 1: an instruction changes no element outside those the table says it writes; in particular memory
is written by Fx33 and Fx55 only (20_memory.md R43) and keys and breakpoints by none. -/
def Obligations.InstructionFrame : Prop :=
  ∀ (i : Instr) (s t : State), exec i s = .next t → UnchangedExcept (mayWrite i) s t

/-- 10_state.md R15: VF changes only by the six flag-writing instructions or where it is named as the destination, and
the six leave 0 or 1 in it where it is not their Vx. -/
def Obligations.FlagRegisterWriters : Prop :=
  ∀ (i : Instr) (s t : State), exec i s = .next t →
    (writesFlag i = false → destination i ≠ some 15 → t.v 15 = s.v 15) ∧
    (writesFlag i = true → destination i ≠ some 15 → t.v 15 = 0 ∨ t.v 15 = 1)

/-- 60_exceptions.md R125, R126, R129 (with the spec's own decisions D1 to D3): no instruction but a call on a full
stack and a return on an empty one halts the engine or sets the latch. -/
def Obligations.OnlyStackFaultsHalt : Prop :=
  ∀ (i : Instr) (s t : State), exec i s = .next t → t.running ≠ s.running ∨ t.fault ≠ s.fault →
    ((∃ nnn, i = .call nnn) ∧ s.sp.val = 16) ∨ (i = .ret ∧ s.sp.val = 0)

/-- 60_exceptions.md R134 (the spec's own inference, on its decision D3): a stack fault is final for the run: resumed,
the faulting instruction faults again, with the same event and the same state. -/
def Obligations.StackFaultRepeatsOnResume : Prop :=
  ∀ (s : State) (i : Instr), s.running = true → s.pc ∉ s.breakpoints → decode s.fetchWord = .ok i →
    ((∃ nnn, i = .call nnn) ∧ s.sp.val = 16) ∨ (i = .ret ∧ s.sp.val = 0) →
    ∃ t u : State, step s = .next t ∧ t.pc = s.pc ∧ t.running = false ∧ t.fault ≠ .none ∧ operate .resume t = .next u ∧
      u.fault = t.fault ∧ step u = .next t ∧ cycleEvent u = cycleEvent s

/-- 10_state.md R18 (with the spec's own decisions D3 and D33): how pc changes, instruction by instruction, in a step
that executes one. -/
def Obligations.PcAfterStep : Prop :=
  ∀ (s t : State) (i : Instr), s.running = true → s.pc ∉ s.breakpoints → decode s.fetchWord = .ok i → step s = .next t →
    match i with
    | .jp nnn => t.pc.toNat = nnn.toNat
    | .jpV0 nnn => t.pc.toNat = nnn.toNat + (s.v 0).toNat
    | .call nnn => (s.sp.val < 16 → t.pc.toNat = nnn.toNat) ∧ (s.sp.val = 16 → t.pc = s.pc)
    | .ret => (s.sp.val = 0 → t.pc = s.pc) ∧ (∀ k : Fin 16, s.sp.val = k.val + 1 → t.pc = s.stack[k.val])
    | .seImm _ _ | .sneImm _ _ | .seReg _ _ | .sneReg _ _ | .skp _ | .sknp _ => t.pc = s.pc + 2 ∨ t.pc = s.pc + 4
    | .ldVxK _ => t.pc = s.pc + 2 ∨ t.pc = s.pc
    | _ => t.pc = s.pc + 2

/-- 60_exceptions.md R135 (the spec's own inference), 10_state.md R29 (its own latch, D3): what no step changes,
whatever it executes: keys and breakpoints stay, the engine is not set Running, `changed` is not cleared, the fault
latch is not cleared, timers change only by Fx15 and Fx18. -/
def Obligations.ProgramLeavesHostState : Prop :=
  ∀ s t : State, step s = .next t →
    UnchangedExcept [.memory, .registers, .index, .pc, .stack, .sp, .delayTimer, .soundTimer, .framebuffer, .changed,
      .running, .rng, .fault] s t ∧
    (t.running = true → s.running = true) ∧ (s.changed = true → t.changed = true) ∧
    (s.fault ≠ .none → t.fault ≠ .none) ∧
    (t.delayTimer ≠ s.delayTimer → ∃ x, decode s.fetchWord = .ok (.ldDtVx x)) ∧
    (t.soundTimer ≠ s.soundTimer → ∃ x, decode s.fetchWord = .ok (.ldStVx x))

/-- 60_exceptions.md R135 (the spec's own inference) for registers, I, pc, the stack and the framebuffer, 10_state.md
section 1 for the random source, R29 (the spec's own latch, D3, log entry 8) for the fault latch: no host operation but
`cycle`, `reset` and a state load changes any of them. -/
def Obligations.HostLeavesProgramState : Prop :=
  ∀ (op : HostOp) (s t : State), op ≠ .cycle → (∀ seed, op ≠ .reset seed) → (∀ p, op ≠ .load p) →
    operate op s = .next t →
    UnchangedExcept [.memory, .delayTimer, .soundTimer, .changed, .keys, .breakpoints, .running] s t

/-- 10_state.md R32 (the spec's own inference, with D16): the random source is seen through draws only: a step that does
not execute Cxnn does the same whatever it holds, and one that does differs in the drawn register only. -/
def Obligations.RandomSourceSeenOnlyThroughDraws : Prop :=
  ∀ (s t : State) (r : Rng), step s = .next t →
    ((∀ x nn, decode s.fetchWord ≠ .ok (.rnd x nn)) → step { s with rng := r } = .next { t with rng := r }) ∧
    (∀ x nn, s.running = true → s.pc ∉ s.breakpoints → decode s.fetchWord = .ok (.rnd x nn) →
      ∃ u : State, step { s with rng := r } = .next u ∧ (∀ q, q ≠ x → u.v q = t.v q) ∧
        UnchangedExcept [.registers, .rng] t u)

/-- The data invariant is kept by every step, from every state: memory stays a canonical list of bytes inside the 4096
(20_memory.md R34, R36) and the breakpoint set canonical (10_state.md R26). The canonical forms are the model's choice,
log entry 5. -/
def Obligations.StepKeepsWellFormed : Prop := ∀ s t : State, s.wf → step s = .next t → t.wf

/-- The data invariant holds right after power-on (70_reset_and_hazards.md R142). The canonical forms that the invariant
is about are the model's choice, log entry 5. -/
def Obligations.ResetIsWellFormed : Prop := State.reset.wf

/-- The data invariant is kept by every schedule of host operations (00_scope.md R12), so it holds in every state a host
can bring the machine to. The canonical forms are the model's choice, log entry 5. -/
def Obligations.ScheduleKeepsWellFormed : Prop :=
  ∀ (ops : List HostOp) (s t : State), s.wf → runSchedule ops s = .next t → t.wf

/-! ### Reset, load and host operations -/

/-- 70_reset_and_hazards.md R142, R143, R144, with the spec's own decisions D3, D13, D14, D15, D32 on the elements its
source does not name, and the font bytes it takes from general knowledge (D24, log entry 4): what `reset` leaves, from
any state: the font at 0x050, zero elsewhere, pc at 0x0200, Halted, `changed` set, the breakpoints as before and
everything else zero, as after power-on. -/
def Obligations.ResetLeavesTheBootState : Prop :=
  ∀ (seed : Nat) (s : State), ∃ t : State, operate (.reset seed) s = .next t ∧
    (List.range 80).map (fun k => (Memory.read t.memory (0x050 + k)).toNat) =
      [0xF0, 0x90, 0x90, 0x90, 0xF0] ++ [0x20, 0x60, 0x20, 0x20, 0x70] ++ [0xF0, 0x10, 0xF0, 0x80, 0xF0] ++
      [0xF0, 0x10, 0xF0, 0x10, 0xF0] ++ [0x90, 0x90, 0xF0, 0x10, 0x10] ++ [0xF0, 0x80, 0xF0, 0x10, 0xF0] ++
      [0xF0, 0x80, 0xF0, 0x90, 0xF0] ++ [0xF0, 0x10, 0x20, 0x40, 0x40] ++ [0xF0, 0x90, 0xF0, 0x90, 0xF0] ++
      [0xF0, 0x90, 0xF0, 0x10, 0xF0] ++ [0xF0, 0x90, 0xF0, 0x90, 0x90] ++ [0xE0, 0x90, 0xE0, 0x90, 0xE0] ++
      [0xF0, 0x80, 0x80, 0x80, 0xF0] ++ [0xE0, 0x90, 0x90, 0x90, 0xE0] ++ [0xF0, 0x80, 0xF0, 0x80, 0xF0] ++
      [0xF0, 0x80, 0xF0, 0x80, 0x80] ∧
    (∀ a < 4096, a < 0x050 ∨ 0x09F < a → Memory.read t.memory a = 0) ∧ (∀ r, t.v r = 0) ∧ t.index = 0 ∧ t.pc = 0x0200 ∧
    (∀ k : Fin 16, t.stack[k.val] = 0) ∧ t.sp = 0 ∧ t.delayTimer = 0 ∧ t.soundTimer = 0 ∧
    (∀ px py, t.framebuffer.pixel px py = false) ∧ t.changed = true ∧ (∀ k : Fin 16, t.keys[k.val] = false) ∧
    t.breakpoints = s.breakpoints ∧ t.running = false ∧ t.fault = .none ∧
    State.reset.breakpoints = [] ∧ UnchangedExcept [.breakpoints, .rng] State.reset t

/-- 70_reset_and_hazards.md R146 (with the spec's own decision D20), R147: a ROM of at most 3584 bytes is copied to
0x200 and sets Running; a larger one changes nothing. -/
def Obligations.LoadRomCopiesOrRejects : Prop :=
  ∀ (rom : List Byte) (s : State),
    (rom.length ≤ 3584 → ∃ t : State, operate (.loadRom rom) s = .next t ∧ response (.loadRom rom) s = .ok ∧
      (∀ (k : Nat) (_ : k < rom.length), Memory.read t.memory (0x200 + k) = rom[k]) ∧
      (∀ a < 4096, a < 0x200 ∨ 0x200 + rom.length ≤ a → Memory.read t.memory a = Memory.read s.memory a) ∧
      t.running = true ∧ UnchangedExcept [.memory, .running] s t) ∧
    (3584 < rom.length → operate (.loadRom rom) s = .next s ∧ response (.loadRom rom) s = .romTooLarge)

/-- 70_reset_and_hazards.md R148 (the spec's own inference from R143 and R146): the state a program starts in after
`reset` and `loadROM`, from any state of the CORE. -/
def Obligations.BootSequence : Prop :=
  ∀ (seed : Nat) (rom : List Byte) (s : State), rom.length ≤ 3584 →
    ∃ t : State, runSchedule [.reset seed, .loadRom rom] s = .next t ∧ t.running = true ∧ t.pc = 0x0200 ∧ t.sp = 0 ∧
      t.good ∧ (∀ r, t.v r = 0) ∧ t.index = 0 ∧ t.delayTimer = 0 ∧ t.soundTimer = 0 ∧
      (∀ px py, t.framebuffer.pixel px py = false) ∧ (∀ k, t.keyHeld k = false) ∧ t.breakpoints = s.breakpoints ∧
      (∀ (k : Nat) (_ : k < rom.length), Memory.read t.memory (0x200 + k) = rom[k]) ∧
      (∀ a < 4096, a < 0x200 ∨ 0x200 + rom.length ≤ a → Memory.read t.memory a = Memory.read State.reset.memory a)

/-- 45_host_operations.md R106 (with the spec's own decision D17): both timers down by one, not below 0, while Running;
nothing while Halted. -/
def Obligations.TickCountsDown : Prop :=
  ∀ s : State,
    (s.running = true → ∃ t : State, operate .tick s = .next t ∧
      t.delayTimer.toNat = s.delayTimer.toNat - 1 ∧ t.soundTimer.toNat = s.soundTimer.toNat - 1 ∧
      UnchangedExcept [.delayTimer, .soundTimer] s t) ∧
    (s.running = false → operate .tick s = .next s)

/-- 45_host_operations.md R107, R108: the named key, for any integer; one outside 0 to 15 changes nothing. -/
def Obligations.KeyReportsSetTheLatch : Prop :=
  ∀ (k : Int) (s : State), ∃ t u : State, operate (.keyDown k) s = .next t ∧ operate (.keyUp k) s = .next u ∧
    (∀ j : Fin 16, (j.val : Int) = k → t.keys[j.val] = true ∧ u.keys[j.val] = false) ∧
    (∀ j : Fin 16, (j.val : Int) ≠ k → t.keys[j.val] = s.keys[j.val] ∧ u.keys[j.val] = s.keys[j.val]) ∧
    UnchangedExcept [.keys] s t ∧ UnchangedExcept [.keys] s u

/-- 45_host_operations.md R109, R110: only the set is written, so a breakpoint set at the pc of a Running machine is hit
by the next cycle, which halts the engine and changes nothing else. -/
def Obligations.BreakpointSetOperations : Prop :=
  ∀ (a : Word) (s : State), ∃ t u : State,
    operate (.setBreakpoint a) s = .next t ∧ operate (.clearBreakpoint a) s = .next u ∧
    (∀ b, b ∈ t.breakpoints ↔ b = a ∨ b ∈ s.breakpoints) ∧ (∀ b, b ∈ u.breakpoints ↔ b ≠ a ∧ b ∈ s.breakpoints) ∧
    UnchangedExcept [.breakpoints] s t ∧ UnchangedExcept [.breakpoints] s u ∧
    (s.running = true → s.pc = a → cycleEvent t = .breakpointHit a ∧
      ∃ h : State, step t = .next h ∧ h.running = false ∧ UnchangedExcept [.running] t h)

/-- 45_host_operations.md R111, R112 (D28), R113: only `running` is written, and `hardStop` is `pause`, which is the
spec's own decision D21. -/
def Obligations.RunControlOperations : Prop :=
  ∀ s : State, ∃ t u : State,
    operate .pause s = .next t ∧ operate .hardStop s = .next t ∧ operate .resume s = .next u ∧
    t.running = false ∧ u.running = true ∧ UnchangedExcept [.running] s t ∧ UnchangedExcept [.running] s u

/-- 45_host_operations.md R114 (with the spec's own decision D34), R115, R116: what the host gets of the framebuffer,
and what becomes of `changed`. -/
def Obligations.FramebufferReadOut : Prop :=
  ∀ s : State, ∃ t : State,
    operate .clearChanged s = .next t ∧ operate .takeChangedFramebuffer s = .next t ∧ t.changed = false ∧
    UnchangedExcept [.changed] s t ∧
    (s.changed = true → response .takeChangedFramebuffer s = .taken (some s.framebuffer)) ∧
    (s.changed = false → response .takeChangedFramebuffer s = .taken none ∧ t = s) ∧
    operate (.read .framebuffer) s = .next s ∧ response (.read .framebuffer) s = .pixels s.framebuffer

/-- 45_host_operations.md R117, R118: a read accessor changes nothing and hands out the element it names; that a sound
timer not 0 is what "active" means is the spec's own decision D23. -/
def Obligations.ReadAccessorsOnlyRead : Prop :=
  ∀ s : State, (∀ a : Accessor, operate (.read a) s = .next s) ∧
    response (.read .delayTimer) s = .byte s.delayTimer ∧ response (.read .soundTimer) s = .byte s.soundTimer ∧
    response (.read .running) s = .bit s.running ∧ response (.read .changed) s = .bit s.changed ∧
    response (.read .fault) s = .code s.fault ∧ response (.read .pc) s = .word s.pc ∧
    response (.read .index) s = .word s.index ∧ response (.read .sp) s = .count s.sp.val ∧
    response (.read .registers) s = .bytes s.registers ∧ response (.read .stack) s = .words s.stack ∧
    response (.read .keys) s = .bits s.keys ∧ response (.read .breakpoints) s = .addresses s.breakpoints ∧
    (s.soundTimer.toNat ≠ 0 → response (.read .soundActive) s = .bit true) ∧
    (s.soundTimer.toNat = 0 → response (.read .soundActive) s = .bit false)

/-- 70_reset_and_hazards.md R149 (the spec's own inference): a state load changes nothing when the snapshot is invalid, and
otherwise sets every element at once to what the snapshot holds. The checks on the lengths of the lists, that of the
random source the seed is what is loaded, and the value Ok that a successful load returns are the model's choice, log
entry 13. -/
def Obligations.StateLoadIsAllOrNothing : Prop :=
  ∀ (p : Snapshot) (s : State),
    (¬p.wf → operate (.load p) s = .next s ∧ response (.load p) s = .invalidSnapshot) ∧
    (p.wf → ∃ t : State, operate (.load p) s = .next t ∧ response (.load p) s = .ok ∧
      (∀ (a : Nat) (_ : a < p.memory.length), Memory.read t.memory a = p.memory[a]) ∧
      t.registers = p.registers ∧ t.index = p.index ∧ t.pc = p.pc ∧ t.stack = p.stack ∧ t.sp.val = p.sp ∧
      t.delayTimer = p.delayTimer ∧ t.soundTimer = p.soundTimer ∧
      (∀ (px : Fin 64) (py : Fin 32), t.framebuffer.pixel px py = true ↔ p.pixels[py.val * 64 + px.val]? = some 1) ∧
      t.changed = p.changed ∧ (∀ k : Fin 16, t.keys[k.val] = true ↔ p.keys[k.val]? = some 1) ∧
      (∀ a, a ∈ t.breakpoints ↔ a ∈ p.breakpoints) ∧ t.running = p.running ∧ t.rng.seed = p.seed ∧
      t.fault = p.fault)
end

