-- ==== Sys2Proof/Laws/State.lean ====
section
/-!
SUPPORT. One lemma per field per update of the state, so that no later proof unfolds a record update.
-/

namespace Sys2Proof.Machine

variable (s : State)

/-! `State.setMemory` -/

@[simp] theorem State.setMemory_memory (m : Memory) : (s.setMemory m).memory = m := rfl
@[simp] theorem State.setMemory_registers (m : Memory) : (s.setMemory m).registers = s.registers := rfl
@[simp] theorem State.setMemory_index (m : Memory) : (s.setMemory m).index = s.index := rfl
@[simp] theorem State.setMemory_pc (m : Memory) : (s.setMemory m).pc = s.pc := rfl
@[simp] theorem State.setMemory_stack (m : Memory) : (s.setMemory m).stack = s.stack := rfl
@[simp] theorem State.setMemory_sp (m : Memory) : (s.setMemory m).sp = s.sp := rfl
@[simp] theorem State.setMemory_delayTimer (m : Memory) : (s.setMemory m).delayTimer = s.delayTimer := rfl
@[simp] theorem State.setMemory_soundTimer (m : Memory) : (s.setMemory m).soundTimer = s.soundTimer := rfl
@[simp] theorem State.setMemory_framebuffer (m : Memory) : (s.setMemory m).framebuffer = s.framebuffer := rfl
@[simp] theorem State.setMemory_changed (m : Memory) : (s.setMemory m).changed = s.changed := rfl
@[simp] theorem State.setMemory_keys (m : Memory) : (s.setMemory m).keys = s.keys := rfl
@[simp] theorem State.setMemory_breakpoints (m : Memory) : (s.setMemory m).breakpoints = s.breakpoints := rfl
@[simp] theorem State.setMemory_running (m : Memory) : (s.setMemory m).running = s.running := rfl
@[simp] theorem State.setMemory_rng (m : Memory) : (s.setMemory m).rng = s.rng := rfl
@[simp] theorem State.setMemory_fault (m : Memory) : (s.setMemory m).fault = s.fault := rfl

/-! `State.setV` -/

@[simp] theorem State.setV_memory (r : RegNum) (b : Byte) : (s.setV r b).memory = s.memory := rfl
@[simp] theorem State.setV_registers (r : RegNum) (b : Byte) : (s.setV r b).registers = s.registers.set r.val b := rfl
@[simp] theorem State.setV_index (r : RegNum) (b : Byte) : (s.setV r b).index = s.index := rfl
@[simp] theorem State.setV_pc (r : RegNum) (b : Byte) : (s.setV r b).pc = s.pc := rfl
@[simp] theorem State.setV_stack (r : RegNum) (b : Byte) : (s.setV r b).stack = s.stack := rfl
@[simp] theorem State.setV_sp (r : RegNum) (b : Byte) : (s.setV r b).sp = s.sp := rfl
@[simp] theorem State.setV_delayTimer (r : RegNum) (b : Byte) : (s.setV r b).delayTimer = s.delayTimer := rfl
@[simp] theorem State.setV_soundTimer (r : RegNum) (b : Byte) : (s.setV r b).soundTimer = s.soundTimer := rfl
@[simp] theorem State.setV_framebuffer (r : RegNum) (b : Byte) : (s.setV r b).framebuffer = s.framebuffer := rfl
@[simp] theorem State.setV_changed (r : RegNum) (b : Byte) : (s.setV r b).changed = s.changed := rfl
@[simp] theorem State.setV_keys (r : RegNum) (b : Byte) : (s.setV r b).keys = s.keys := rfl
@[simp] theorem State.setV_breakpoints (r : RegNum) (b : Byte) : (s.setV r b).breakpoints = s.breakpoints := rfl
@[simp] theorem State.setV_running (r : RegNum) (b : Byte) : (s.setV r b).running = s.running := rfl
@[simp] theorem State.setV_rng (r : RegNum) (b : Byte) : (s.setV r b).rng = s.rng := rfl
@[simp] theorem State.setV_fault (r : RegNum) (b : Byte) : (s.setV r b).fault = s.fault := rfl

/-! `State.setFlag` -/

@[simp] theorem State.setFlag_memory (c : Bool) : (s.setFlag c).memory = s.memory := rfl
@[simp] theorem State.setFlag_registers (c : Bool) : (s.setFlag c).registers = s.registers.set 15 (flagByte c) := rfl
@[simp] theorem State.setFlag_index (c : Bool) : (s.setFlag c).index = s.index := rfl
@[simp] theorem State.setFlag_pc (c : Bool) : (s.setFlag c).pc = s.pc := rfl
@[simp] theorem State.setFlag_stack (c : Bool) : (s.setFlag c).stack = s.stack := rfl
@[simp] theorem State.setFlag_sp (c : Bool) : (s.setFlag c).sp = s.sp := rfl
@[simp] theorem State.setFlag_delayTimer (c : Bool) : (s.setFlag c).delayTimer = s.delayTimer := rfl
@[simp] theorem State.setFlag_soundTimer (c : Bool) : (s.setFlag c).soundTimer = s.soundTimer := rfl
@[simp] theorem State.setFlag_framebuffer (c : Bool) : (s.setFlag c).framebuffer = s.framebuffer := rfl
@[simp] theorem State.setFlag_changed (c : Bool) : (s.setFlag c).changed = s.changed := rfl
@[simp] theorem State.setFlag_keys (c : Bool) : (s.setFlag c).keys = s.keys := rfl
@[simp] theorem State.setFlag_breakpoints (c : Bool) : (s.setFlag c).breakpoints = s.breakpoints := rfl
@[simp] theorem State.setFlag_running (c : Bool) : (s.setFlag c).running = s.running := rfl
@[simp] theorem State.setFlag_rng (c : Bool) : (s.setFlag c).rng = s.rng := rfl
@[simp] theorem State.setFlag_fault (c : Bool) : (s.setFlag c).fault = s.fault := rfl

/-! `State.setRegisters` -/

@[simp] theorem State.setRegisters_memory (v : Vector Byte 16) : (s.setRegisters v).memory = s.memory := rfl
@[simp] theorem State.setRegisters_registers (v : Vector Byte 16) : (s.setRegisters v).registers = v := rfl
@[simp] theorem State.setRegisters_index (v : Vector Byte 16) : (s.setRegisters v).index = s.index := rfl
@[simp] theorem State.setRegisters_pc (v : Vector Byte 16) : (s.setRegisters v).pc = s.pc := rfl
@[simp] theorem State.setRegisters_stack (v : Vector Byte 16) : (s.setRegisters v).stack = s.stack := rfl
@[simp] theorem State.setRegisters_sp (v : Vector Byte 16) : (s.setRegisters v).sp = s.sp := rfl
@[simp] theorem State.setRegisters_delayTimer (v : Vector Byte 16) : (s.setRegisters v).delayTimer = s.delayTimer := rfl
@[simp] theorem State.setRegisters_soundTimer (v : Vector Byte 16) : (s.setRegisters v).soundTimer = s.soundTimer := rfl
@[simp] theorem State.setRegisters_framebuffer (v : Vector Byte 16) : (s.setRegisters v).framebuffer = s.framebuffer := rfl
@[simp] theorem State.setRegisters_changed (v : Vector Byte 16) : (s.setRegisters v).changed = s.changed := rfl
@[simp] theorem State.setRegisters_keys (v : Vector Byte 16) : (s.setRegisters v).keys = s.keys := rfl
@[simp] theorem State.setRegisters_breakpoints (v : Vector Byte 16) : (s.setRegisters v).breakpoints = s.breakpoints := rfl
@[simp] theorem State.setRegisters_running (v : Vector Byte 16) : (s.setRegisters v).running = s.running := rfl
@[simp] theorem State.setRegisters_rng (v : Vector Byte 16) : (s.setRegisters v).rng = s.rng := rfl
@[simp] theorem State.setRegisters_fault (v : Vector Byte 16) : (s.setRegisters v).fault = s.fault := rfl

/-! `State.setIndex` -/

@[simp] theorem State.setIndex_memory (a : Word) : (s.setIndex a).memory = s.memory := rfl
@[simp] theorem State.setIndex_registers (a : Word) : (s.setIndex a).registers = s.registers := rfl
@[simp] theorem State.setIndex_index (a : Word) : (s.setIndex a).index = a := rfl
@[simp] theorem State.setIndex_pc (a : Word) : (s.setIndex a).pc = s.pc := rfl
@[simp] theorem State.setIndex_stack (a : Word) : (s.setIndex a).stack = s.stack := rfl
@[simp] theorem State.setIndex_sp (a : Word) : (s.setIndex a).sp = s.sp := rfl
@[simp] theorem State.setIndex_delayTimer (a : Word) : (s.setIndex a).delayTimer = s.delayTimer := rfl
@[simp] theorem State.setIndex_soundTimer (a : Word) : (s.setIndex a).soundTimer = s.soundTimer := rfl
@[simp] theorem State.setIndex_framebuffer (a : Word) : (s.setIndex a).framebuffer = s.framebuffer := rfl
@[simp] theorem State.setIndex_changed (a : Word) : (s.setIndex a).changed = s.changed := rfl
@[simp] theorem State.setIndex_keys (a : Word) : (s.setIndex a).keys = s.keys := rfl
@[simp] theorem State.setIndex_breakpoints (a : Word) : (s.setIndex a).breakpoints = s.breakpoints := rfl
@[simp] theorem State.setIndex_running (a : Word) : (s.setIndex a).running = s.running := rfl
@[simp] theorem State.setIndex_rng (a : Word) : (s.setIndex a).rng = s.rng := rfl
@[simp] theorem State.setIndex_fault (a : Word) : (s.setIndex a).fault = s.fault := rfl

/-! `State.setPc` -/

@[simp] theorem State.setPc_memory (a : Word) : (s.setPc a).memory = s.memory := rfl
@[simp] theorem State.setPc_registers (a : Word) : (s.setPc a).registers = s.registers := rfl
@[simp] theorem State.setPc_index (a : Word) : (s.setPc a).index = s.index := rfl
@[simp] theorem State.setPc_pc (a : Word) : (s.setPc a).pc = a := rfl
@[simp] theorem State.setPc_stack (a : Word) : (s.setPc a).stack = s.stack := rfl
@[simp] theorem State.setPc_sp (a : Word) : (s.setPc a).sp = s.sp := rfl
@[simp] theorem State.setPc_delayTimer (a : Word) : (s.setPc a).delayTimer = s.delayTimer := rfl
@[simp] theorem State.setPc_soundTimer (a : Word) : (s.setPc a).soundTimer = s.soundTimer := rfl
@[simp] theorem State.setPc_framebuffer (a : Word) : (s.setPc a).framebuffer = s.framebuffer := rfl
@[simp] theorem State.setPc_changed (a : Word) : (s.setPc a).changed = s.changed := rfl
@[simp] theorem State.setPc_keys (a : Word) : (s.setPc a).keys = s.keys := rfl
@[simp] theorem State.setPc_breakpoints (a : Word) : (s.setPc a).breakpoints = s.breakpoints := rfl
@[simp] theorem State.setPc_running (a : Word) : (s.setPc a).running = s.running := rfl
@[simp] theorem State.setPc_rng (a : Word) : (s.setPc a).rng = s.rng := rfl
@[simp] theorem State.setPc_fault (a : Word) : (s.setPc a).fault = s.fault := rfl

/-! `State.advancePc` -/

@[simp] theorem State.advancePc_memory : s.advancePc.memory = s.memory := rfl
@[simp] theorem State.advancePc_registers : s.advancePc.registers = s.registers := rfl
@[simp] theorem State.advancePc_index : s.advancePc.index = s.index := rfl
@[simp] theorem State.advancePc_pc : s.advancePc.pc = s.pc + 2 := rfl
@[simp] theorem State.advancePc_stack : s.advancePc.stack = s.stack := rfl
@[simp] theorem State.advancePc_sp : s.advancePc.sp = s.sp := rfl
@[simp] theorem State.advancePc_delayTimer : s.advancePc.delayTimer = s.delayTimer := rfl
@[simp] theorem State.advancePc_soundTimer : s.advancePc.soundTimer = s.soundTimer := rfl
@[simp] theorem State.advancePc_framebuffer : s.advancePc.framebuffer = s.framebuffer := rfl
@[simp] theorem State.advancePc_changed : s.advancePc.changed = s.changed := rfl
@[simp] theorem State.advancePc_keys : s.advancePc.keys = s.keys := rfl
@[simp] theorem State.advancePc_breakpoints : s.advancePc.breakpoints = s.breakpoints := rfl
@[simp] theorem State.advancePc_running : s.advancePc.running = s.running := rfl
@[simp] theorem State.advancePc_rng : s.advancePc.rng = s.rng := rfl
@[simp] theorem State.advancePc_fault : s.advancePc.fault = s.fault := rfl

/-! `State.setRunning` -/

@[simp] theorem State.setRunning_memory (r : Bool) : (s.setRunning r).memory = s.memory := rfl
@[simp] theorem State.setRunning_registers (r : Bool) : (s.setRunning r).registers = s.registers := rfl
@[simp] theorem State.setRunning_index (r : Bool) : (s.setRunning r).index = s.index := rfl
@[simp] theorem State.setRunning_pc (r : Bool) : (s.setRunning r).pc = s.pc := rfl
@[simp] theorem State.setRunning_stack (r : Bool) : (s.setRunning r).stack = s.stack := rfl
@[simp] theorem State.setRunning_sp (r : Bool) : (s.setRunning r).sp = s.sp := rfl
@[simp] theorem State.setRunning_delayTimer (r : Bool) : (s.setRunning r).delayTimer = s.delayTimer := rfl
@[simp] theorem State.setRunning_soundTimer (r : Bool) : (s.setRunning r).soundTimer = s.soundTimer := rfl
@[simp] theorem State.setRunning_framebuffer (r : Bool) : (s.setRunning r).framebuffer = s.framebuffer := rfl
@[simp] theorem State.setRunning_changed (r : Bool) : (s.setRunning r).changed = s.changed := rfl
@[simp] theorem State.setRunning_keys (r : Bool) : (s.setRunning r).keys = s.keys := rfl
@[simp] theorem State.setRunning_breakpoints (r : Bool) : (s.setRunning r).breakpoints = s.breakpoints := rfl
@[simp] theorem State.setRunning_running (r : Bool) : (s.setRunning r).running = r := rfl
@[simp] theorem State.setRunning_rng (r : Bool) : (s.setRunning r).rng = s.rng := rfl
@[simp] theorem State.setRunning_fault (r : Bool) : (s.setRunning r).fault = s.fault := rfl

/-! `State.resume` -/

@[simp] theorem State.resume_memory : s.resume.memory = s.memory := rfl
@[simp] theorem State.resume_registers : s.resume.registers = s.registers := rfl
@[simp] theorem State.resume_index : s.resume.index = s.index := rfl
@[simp] theorem State.resume_pc : s.resume.pc = s.pc := rfl
@[simp] theorem State.resume_stack : s.resume.stack = s.stack := rfl
@[simp] theorem State.resume_sp : s.resume.sp = s.sp := rfl
@[simp] theorem State.resume_delayTimer : s.resume.delayTimer = s.delayTimer := rfl
@[simp] theorem State.resume_soundTimer : s.resume.soundTimer = s.soundTimer := rfl
@[simp] theorem State.resume_framebuffer : s.resume.framebuffer = s.framebuffer := rfl
@[simp] theorem State.resume_changed : s.resume.changed = s.changed := rfl
@[simp] theorem State.resume_keys : s.resume.keys = s.keys := rfl
@[simp] theorem State.resume_breakpoints : s.resume.breakpoints = s.breakpoints := rfl
@[simp] theorem State.resume_running : s.resume.running = true := rfl
@[simp] theorem State.resume_rng : s.resume.rng = s.rng := rfl
@[simp] theorem State.resume_fault : s.resume.fault = s.fault := rfl

/-! `State.raise` -/

@[simp] theorem State.raise_memory (f : FaultCode) : (s.raise f).memory = s.memory := rfl
@[simp] theorem State.raise_registers (f : FaultCode) : (s.raise f).registers = s.registers := rfl
@[simp] theorem State.raise_index (f : FaultCode) : (s.raise f).index = s.index := rfl
@[simp] theorem State.raise_pc (f : FaultCode) : (s.raise f).pc = s.pc - 2 := rfl
@[simp] theorem State.raise_stack (f : FaultCode) : (s.raise f).stack = s.stack := rfl
@[simp] theorem State.raise_sp (f : FaultCode) : (s.raise f).sp = s.sp := rfl
@[simp] theorem State.raise_delayTimer (f : FaultCode) : (s.raise f).delayTimer = s.delayTimer := rfl
@[simp] theorem State.raise_soundTimer (f : FaultCode) : (s.raise f).soundTimer = s.soundTimer := rfl
@[simp] theorem State.raise_framebuffer (f : FaultCode) : (s.raise f).framebuffer = s.framebuffer := rfl
@[simp] theorem State.raise_changed (f : FaultCode) : (s.raise f).changed = s.changed := rfl
@[simp] theorem State.raise_keys (f : FaultCode) : (s.raise f).keys = s.keys := rfl
@[simp] theorem State.raise_breakpoints (f : FaultCode) : (s.raise f).breakpoints = s.breakpoints := rfl
@[simp] theorem State.raise_running (f : FaultCode) : (s.raise f).running = false := rfl
@[simp] theorem State.raise_rng (f : FaultCode) : (s.raise f).rng = s.rng := rfl
@[simp] theorem State.raise_fault (f : FaultCode) : (s.raise f).fault = f := rfl

/-! `State.show` -/

@[simp] theorem State.show_memory (fb : Framebuffer) : (s.show fb).memory = s.memory := rfl
@[simp] theorem State.show_registers (fb : Framebuffer) : (s.show fb).registers = s.registers := rfl
@[simp] theorem State.show_index (fb : Framebuffer) : (s.show fb).index = s.index := rfl
@[simp] theorem State.show_pc (fb : Framebuffer) : (s.show fb).pc = s.pc := rfl
@[simp] theorem State.show_stack (fb : Framebuffer) : (s.show fb).stack = s.stack := rfl
@[simp] theorem State.show_sp (fb : Framebuffer) : (s.show fb).sp = s.sp := rfl
@[simp] theorem State.show_delayTimer (fb : Framebuffer) : (s.show fb).delayTimer = s.delayTimer := rfl
@[simp] theorem State.show_soundTimer (fb : Framebuffer) : (s.show fb).soundTimer = s.soundTimer := rfl
@[simp] theorem State.show_framebuffer (fb : Framebuffer) : (s.show fb).framebuffer = fb := rfl
@[simp] theorem State.show_changed (fb : Framebuffer) : (s.show fb).changed = true := rfl
@[simp] theorem State.show_keys (fb : Framebuffer) : (s.show fb).keys = s.keys := rfl
@[simp] theorem State.show_breakpoints (fb : Framebuffer) : (s.show fb).breakpoints = s.breakpoints := rfl
@[simp] theorem State.show_running (fb : Framebuffer) : (s.show fb).running = s.running := rfl
@[simp] theorem State.show_rng (fb : Framebuffer) : (s.show fb).rng = s.rng := rfl
@[simp] theorem State.show_fault (fb : Framebuffer) : (s.show fb).fault = s.fault := rfl

/-! `State.clearChanged` -/

@[simp] theorem State.clearChanged_memory : s.clearChanged.memory = s.memory := rfl
@[simp] theorem State.clearChanged_registers : s.clearChanged.registers = s.registers := rfl
@[simp] theorem State.clearChanged_index : s.clearChanged.index = s.index := rfl
@[simp] theorem State.clearChanged_pc : s.clearChanged.pc = s.pc := rfl
@[simp] theorem State.clearChanged_stack : s.clearChanged.stack = s.stack := rfl
@[simp] theorem State.clearChanged_sp : s.clearChanged.sp = s.sp := rfl
@[simp] theorem State.clearChanged_delayTimer : s.clearChanged.delayTimer = s.delayTimer := rfl
@[simp] theorem State.clearChanged_soundTimer : s.clearChanged.soundTimer = s.soundTimer := rfl
@[simp] theorem State.clearChanged_framebuffer : s.clearChanged.framebuffer = s.framebuffer := rfl
@[simp] theorem State.clearChanged_changed : s.clearChanged.changed = false := rfl
@[simp] theorem State.clearChanged_keys : s.clearChanged.keys = s.keys := rfl
@[simp] theorem State.clearChanged_breakpoints : s.clearChanged.breakpoints = s.breakpoints := rfl
@[simp] theorem State.clearChanged_running : s.clearChanged.running = s.running := rfl
@[simp] theorem State.clearChanged_rng : s.clearChanged.rng = s.rng := rfl
@[simp] theorem State.clearChanged_fault : s.clearChanged.fault = s.fault := rfl

/-! `State.setDelay` -/

@[simp] theorem State.setDelay_memory (b : Byte) : (s.setDelay b).memory = s.memory := rfl
@[simp] theorem State.setDelay_registers (b : Byte) : (s.setDelay b).registers = s.registers := rfl
@[simp] theorem State.setDelay_index (b : Byte) : (s.setDelay b).index = s.index := rfl
@[simp] theorem State.setDelay_pc (b : Byte) : (s.setDelay b).pc = s.pc := rfl
@[simp] theorem State.setDelay_stack (b : Byte) : (s.setDelay b).stack = s.stack := rfl
@[simp] theorem State.setDelay_sp (b : Byte) : (s.setDelay b).sp = s.sp := rfl
@[simp] theorem State.setDelay_delayTimer (b : Byte) : (s.setDelay b).delayTimer = b := rfl
@[simp] theorem State.setDelay_soundTimer (b : Byte) : (s.setDelay b).soundTimer = s.soundTimer := rfl
@[simp] theorem State.setDelay_framebuffer (b : Byte) : (s.setDelay b).framebuffer = s.framebuffer := rfl
@[simp] theorem State.setDelay_changed (b : Byte) : (s.setDelay b).changed = s.changed := rfl
@[simp] theorem State.setDelay_keys (b : Byte) : (s.setDelay b).keys = s.keys := rfl
@[simp] theorem State.setDelay_breakpoints (b : Byte) : (s.setDelay b).breakpoints = s.breakpoints := rfl
@[simp] theorem State.setDelay_running (b : Byte) : (s.setDelay b).running = s.running := rfl
@[simp] theorem State.setDelay_rng (b : Byte) : (s.setDelay b).rng = s.rng := rfl
@[simp] theorem State.setDelay_fault (b : Byte) : (s.setDelay b).fault = s.fault := rfl

/-! `State.setSound` -/

@[simp] theorem State.setSound_memory (b : Byte) : (s.setSound b).memory = s.memory := rfl
@[simp] theorem State.setSound_registers (b : Byte) : (s.setSound b).registers = s.registers := rfl
@[simp] theorem State.setSound_index (b : Byte) : (s.setSound b).index = s.index := rfl
@[simp] theorem State.setSound_pc (b : Byte) : (s.setSound b).pc = s.pc := rfl
@[simp] theorem State.setSound_stack (b : Byte) : (s.setSound b).stack = s.stack := rfl
@[simp] theorem State.setSound_sp (b : Byte) : (s.setSound b).sp = s.sp := rfl
@[simp] theorem State.setSound_delayTimer (b : Byte) : (s.setSound b).delayTimer = s.delayTimer := rfl
@[simp] theorem State.setSound_soundTimer (b : Byte) : (s.setSound b).soundTimer = b := rfl
@[simp] theorem State.setSound_framebuffer (b : Byte) : (s.setSound b).framebuffer = s.framebuffer := rfl
@[simp] theorem State.setSound_changed (b : Byte) : (s.setSound b).changed = s.changed := rfl
@[simp] theorem State.setSound_keys (b : Byte) : (s.setSound b).keys = s.keys := rfl
@[simp] theorem State.setSound_breakpoints (b : Byte) : (s.setSound b).breakpoints = s.breakpoints := rfl
@[simp] theorem State.setSound_running (b : Byte) : (s.setSound b).running = s.running := rfl
@[simp] theorem State.setSound_rng (b : Byte) : (s.setSound b).rng = s.rng := rfl
@[simp] theorem State.setSound_fault (b : Byte) : (s.setSound b).fault = s.fault := rfl

/-! `State.setKey` -/

@[simp] theorem State.setKey_memory (k : Fin 16) (d : Bool) : (s.setKey k d).memory = s.memory := rfl
@[simp] theorem State.setKey_registers (k : Fin 16) (d : Bool) : (s.setKey k d).registers = s.registers := rfl
@[simp] theorem State.setKey_index (k : Fin 16) (d : Bool) : (s.setKey k d).index = s.index := rfl
@[simp] theorem State.setKey_pc (k : Fin 16) (d : Bool) : (s.setKey k d).pc = s.pc := rfl
@[simp] theorem State.setKey_stack (k : Fin 16) (d : Bool) : (s.setKey k d).stack = s.stack := rfl
@[simp] theorem State.setKey_sp (k : Fin 16) (d : Bool) : (s.setKey k d).sp = s.sp := rfl
@[simp] theorem State.setKey_delayTimer (k : Fin 16) (d : Bool) : (s.setKey k d).delayTimer = s.delayTimer := rfl
@[simp] theorem State.setKey_soundTimer (k : Fin 16) (d : Bool) : (s.setKey k d).soundTimer = s.soundTimer := rfl
@[simp] theorem State.setKey_framebuffer (k : Fin 16) (d : Bool) : (s.setKey k d).framebuffer = s.framebuffer := rfl
@[simp] theorem State.setKey_changed (k : Fin 16) (d : Bool) : (s.setKey k d).changed = s.changed := rfl
@[simp] theorem State.setKey_keys (k : Fin 16) (d : Bool) : (s.setKey k d).keys = s.keys.set k.val d := rfl
@[simp] theorem State.setKey_breakpoints (k : Fin 16) (d : Bool) : (s.setKey k d).breakpoints = s.breakpoints := rfl
@[simp] theorem State.setKey_running (k : Fin 16) (d : Bool) : (s.setKey k d).running = s.running := rfl
@[simp] theorem State.setKey_rng (k : Fin 16) (d : Bool) : (s.setKey k d).rng = s.rng := rfl
@[simp] theorem State.setKey_fault (k : Fin 16) (d : Bool) : (s.setKey k d).fault = s.fault := rfl

/-! `State.setBreakpoints` -/

@[simp] theorem State.setBreakpoints_memory (bp : Breakpoints) : (s.setBreakpoints bp).memory = s.memory := rfl
@[simp] theorem State.setBreakpoints_registers (bp : Breakpoints) : (s.setBreakpoints bp).registers = s.registers := rfl
@[simp] theorem State.setBreakpoints_index (bp : Breakpoints) : (s.setBreakpoints bp).index = s.index := rfl
@[simp] theorem State.setBreakpoints_pc (bp : Breakpoints) : (s.setBreakpoints bp).pc = s.pc := rfl
@[simp] theorem State.setBreakpoints_stack (bp : Breakpoints) : (s.setBreakpoints bp).stack = s.stack := rfl
@[simp] theorem State.setBreakpoints_sp (bp : Breakpoints) : (s.setBreakpoints bp).sp = s.sp := rfl
@[simp] theorem State.setBreakpoints_delayTimer (bp : Breakpoints) : (s.setBreakpoints bp).delayTimer = s.delayTimer := rfl
@[simp] theorem State.setBreakpoints_soundTimer (bp : Breakpoints) : (s.setBreakpoints bp).soundTimer = s.soundTimer := rfl
@[simp] theorem State.setBreakpoints_framebuffer (bp : Breakpoints) : (s.setBreakpoints bp).framebuffer = s.framebuffer := rfl
@[simp] theorem State.setBreakpoints_changed (bp : Breakpoints) : (s.setBreakpoints bp).changed = s.changed := rfl
@[simp] theorem State.setBreakpoints_keys (bp : Breakpoints) : (s.setBreakpoints bp).keys = s.keys := rfl
@[simp] theorem State.setBreakpoints_breakpoints (bp : Breakpoints) : (s.setBreakpoints bp).breakpoints = bp := rfl
@[simp] theorem State.setBreakpoints_running (bp : Breakpoints) : (s.setBreakpoints bp).running = s.running := rfl
@[simp] theorem State.setBreakpoints_rng (bp : Breakpoints) : (s.setBreakpoints bp).rng = s.rng := rfl
@[simp] theorem State.setBreakpoints_fault (bp : Breakpoints) : (s.setBreakpoints bp).fault = s.fault := rfl

/-! `State.consumeDraw` -/

@[simp] theorem State.consumeDraw_memory : s.consumeDraw.memory = s.memory := rfl
@[simp] theorem State.consumeDraw_registers : s.consumeDraw.registers = s.registers := rfl
@[simp] theorem State.consumeDraw_index : s.consumeDraw.index = s.index := rfl
@[simp] theorem State.consumeDraw_pc : s.consumeDraw.pc = s.pc := rfl
@[simp] theorem State.consumeDraw_stack : s.consumeDraw.stack = s.stack := rfl
@[simp] theorem State.consumeDraw_sp : s.consumeDraw.sp = s.sp := rfl
@[simp] theorem State.consumeDraw_delayTimer : s.consumeDraw.delayTimer = s.delayTimer := rfl
@[simp] theorem State.consumeDraw_soundTimer : s.consumeDraw.soundTimer = s.soundTimer := rfl
@[simp] theorem State.consumeDraw_framebuffer : s.consumeDraw.framebuffer = s.framebuffer := rfl
@[simp] theorem State.consumeDraw_changed : s.consumeDraw.changed = s.changed := rfl
@[simp] theorem State.consumeDraw_keys : s.consumeDraw.keys = s.keys := rfl
@[simp] theorem State.consumeDraw_breakpoints : s.consumeDraw.breakpoints = s.breakpoints := rfl
@[simp] theorem State.consumeDraw_running : s.consumeDraw.running = s.running := rfl
@[simp] theorem State.consumeDraw_rng : s.consumeDraw.rng = ⟨s.rng.seed, s.rng.draws + 1⟩ := rfl
@[simp] theorem State.consumeDraw_fault : s.consumeDraw.fault = s.fault := rfl

/-! `State.skipIf` -/

@[simp] theorem State.skipIf_memory (c : Bool) : (s.skipIf c).memory = s.memory := by cases c <;> rfl
@[simp] theorem State.skipIf_registers (c : Bool) : (s.skipIf c).registers = s.registers := by cases c <;> rfl
@[simp] theorem State.skipIf_index (c : Bool) : (s.skipIf c).index = s.index := by cases c <;> rfl
@[simp] theorem State.skipIf_pc (c : Bool) : (s.skipIf c).pc = if c then s.pc + 2 else s.pc := by cases c <;> rfl
@[simp] theorem State.skipIf_stack (c : Bool) : (s.skipIf c).stack = s.stack := by cases c <;> rfl
@[simp] theorem State.skipIf_sp (c : Bool) : (s.skipIf c).sp = s.sp := by cases c <;> rfl
@[simp] theorem State.skipIf_delayTimer (c : Bool) : (s.skipIf c).delayTimer = s.delayTimer := by cases c <;> rfl
@[simp] theorem State.skipIf_soundTimer (c : Bool) : (s.skipIf c).soundTimer = s.soundTimer := by cases c <;> rfl
@[simp] theorem State.skipIf_framebuffer (c : Bool) : (s.skipIf c).framebuffer = s.framebuffer := by cases c <;> rfl
@[simp] theorem State.skipIf_changed (c : Bool) : (s.skipIf c).changed = s.changed := by cases c <;> rfl
@[simp] theorem State.skipIf_keys (c : Bool) : (s.skipIf c).keys = s.keys := by cases c <;> rfl
@[simp] theorem State.skipIf_breakpoints (c : Bool) : (s.skipIf c).breakpoints = s.breakpoints := by cases c <;> rfl
@[simp] theorem State.skipIf_running (c : Bool) : (s.skipIf c).running = s.running := by cases c <;> rfl
@[simp] theorem State.skipIf_rng (c : Bool) : (s.skipIf c).rng = s.rng := by cases c <;> rfl
@[simp] theorem State.skipIf_fault (c : Bool) : (s.skipIf c).fault = s.fault := by cases c <;> rfl

/-! `State.pushAndGo` -/

@[simp] theorem State.pushAndGo_memory (a : Word) : (s.pushAndGo a).memory = s.memory := by unfold State.pushAndGo; split <;> rfl
@[simp] theorem State.pushAndGo_registers (a : Word) : (s.pushAndGo a).registers = s.registers := by unfold State.pushAndGo; split <;> rfl
@[simp] theorem State.pushAndGo_index (a : Word) : (s.pushAndGo a).index = s.index := by unfold State.pushAndGo; split <;> rfl
@[simp] theorem State.pushAndGo_delayTimer (a : Word) : (s.pushAndGo a).delayTimer = s.delayTimer := by unfold State.pushAndGo; split <;> rfl
@[simp] theorem State.pushAndGo_soundTimer (a : Word) : (s.pushAndGo a).soundTimer = s.soundTimer := by unfold State.pushAndGo; split <;> rfl
@[simp] theorem State.pushAndGo_framebuffer (a : Word) : (s.pushAndGo a).framebuffer = s.framebuffer := by unfold State.pushAndGo; split <;> rfl
@[simp] theorem State.pushAndGo_changed (a : Word) : (s.pushAndGo a).changed = s.changed := by unfold State.pushAndGo; split <;> rfl
@[simp] theorem State.pushAndGo_keys (a : Word) : (s.pushAndGo a).keys = s.keys := by unfold State.pushAndGo; split <;> rfl
@[simp] theorem State.pushAndGo_breakpoints (a : Word) : (s.pushAndGo a).breakpoints = s.breakpoints := by unfold State.pushAndGo; split <;> rfl
@[simp] theorem State.pushAndGo_rng (a : Word) : (s.pushAndGo a).rng = s.rng := by unfold State.pushAndGo; split <;> rfl

/-! `State.popAndGo` -/

@[simp] theorem State.popAndGo_memory : s.popAndGo.memory = s.memory := by unfold State.popAndGo; split <;> rfl
@[simp] theorem State.popAndGo_registers : s.popAndGo.registers = s.registers := by unfold State.popAndGo; split <;> rfl
@[simp] theorem State.popAndGo_index : s.popAndGo.index = s.index := by unfold State.popAndGo; split <;> rfl
@[simp] theorem State.popAndGo_stack : s.popAndGo.stack = s.stack := by unfold State.popAndGo; split <;> rfl
@[simp] theorem State.popAndGo_delayTimer : s.popAndGo.delayTimer = s.delayTimer := by unfold State.popAndGo; split <;> rfl
@[simp] theorem State.popAndGo_soundTimer : s.popAndGo.soundTimer = s.soundTimer := by unfold State.popAndGo; split <;> rfl
@[simp] theorem State.popAndGo_framebuffer : s.popAndGo.framebuffer = s.framebuffer := by unfold State.popAndGo; split <;> rfl
@[simp] theorem State.popAndGo_changed : s.popAndGo.changed = s.changed := by unfold State.popAndGo; split <;> rfl
@[simp] theorem State.popAndGo_keys : s.popAndGo.keys = s.keys := by unfold State.popAndGo; split <;> rfl
@[simp] theorem State.popAndGo_breakpoints : s.popAndGo.breakpoints = s.breakpoints := by unfold State.popAndGo; split <;> rfl
@[simp] theorem State.popAndGo_rng : s.popAndGo.rng = s.rng := by unfold State.popAndGo; split <;> rfl

end Sys2Proof.Machine
end

