-- ==== Sys2Proof/Laws/Framebuffer.lean ====
section
/-!
SUPPORT. The framebuffer: reading a pixel after flips, and what the blitter leaves.
-/

namespace Sys2Proof.Machine

@[simp] theorem Framebuffer.pixel_clear (px : Fin 64) (py : Fin 32) : Framebuffer.clear.pixel px py = false := by
  simp [Framebuffer.pixel, Framebuffer.clear]

/-- A flip changes the pixel it names and no other. -/
@[simp] theorem Framebuffer.pixel_flip (fb : Framebuffer) (px qx : Fin 64) (py qy : Fin 32) :
    (fb.flip px py).pixel qx qy = (fb.pixel qx qy ^^ decide ((px, py) = (qx, qy))) := by
  by_cases hy : py = qy
  · subst hy
    simp [Framebuffer.pixel, Framebuffer.flip, Prod.ext_iff, Fin.ext_iff, eq_comm]
  · have : py.val ≠ qy.val := fun h => hy (Fin.ext h)
    simp [Framebuffer.pixel, Framebuffer.flip, this, hy]

/-- Framebuffers with the same pixels are the same. -/
theorem Framebuffer.ext_pixel {fb fb' : Framebuffer} (h : ∀ px py, fb.pixel px py = fb'.pixel px py) : fb = fb' := by
  obtain ⟨r⟩ := fb
  obtain ⟨r'⟩ := fb'
  congr 1
  ext i hi j hj
  exact h ⟨j, hj⟩ ⟨i, hi⟩

/-- The pixels after flipping each of a list of distinct positions once. -/
theorem Framebuffer.pixel_foldl_flip (ps : List (Fin 64 × Fin 32)) (hps : ps.Nodup) (fb : Framebuffer)
    (qx : Fin 64) (qy : Fin 32) :
    (ps.foldl (fun fb p => fb.flip p.1 p.2) fb).pixel qx qy = (fb.pixel qx qy ^^ decide ((qx, qy) ∈ ps)) := by
  induction ps generalizing fb with
  | nil => simp
  | cons p ps ih =>
    rw [List.nodup_cons] at hps
    rw [List.foldl_cons, ih hps.2, Framebuffer.pixel_flip]
    by_cases hp : (p.1, p.2) = (qx, qy)
    · have hp' : p = (qx, qy) := hp
      subst hp'
      simp [hps.1]
    · have : ¬(qx, qy) = p := fun h => hp h.symm
      simp [hp, this]

/-- The blitter flips, whatever it detects. -/
theorem blitPixel_foldl_fst (ps : List (Fin 64 × Fin 32)) (acc : Framebuffer × Bool) :
    (ps.foldl blitPixel acc).1 = ps.foldl (fun fb p => fb.flip p.1 p.2) acc.1 := by
  induction ps generalizing acc with
  | nil => rfl
  | cons p ps ih => exact ih (blitPixel acc p)

/-- Over distinct positions, the collision bit says whether some position was on before the blit. -/
theorem blitPixel_foldl_snd (ps : List (Fin 64 × Fin 32)) (hps : ps.Nodup) (acc : Framebuffer × Bool) :
    (ps.foldl blitPixel acc).2 = (acc.2 || ps.any (fun p => acc.1.pixel p.1 p.2)) := by
  induction ps generalizing acc with
  | nil => simp
  | cons p ps ih =>
    rw [List.nodup_cons] at hps
    rw [List.foldl_cons, ih hps.2, List.any_cons, ← Bool.or_assoc]
    congr 1
    rw [Bool.eq_iff_iff, List.any_eq_true, List.any_eq_true]
    refine exists_congr fun q => and_congr_right fun hq => ?_
    have : p ≠ q := fun h => hps.1 (h ▸ hq)
    simp [blitPixel, this]

end Sys2Proof.Machine
end

