-- ==== Sys2Proof/Laws/Memory.lean ====
section
/-!
SUPPORT. Memory: a read after a write, and that every memory operation keeps the canonical form.
-/

namespace Sys2Proof.Machine

/-! ### Reading back -/

theorem Memory.lookup_insert (m : Memory) (a : Nat) (v : Byte) (h : ∀ c ∈ m, c.1 ≠ a) (b : Nat) :
    Memory.lookup (Memory.insert m a v) b = if a = b then v else Memory.lookup m b := by
  induction m with
  | nil => rfl
  | cons c m ih =>
    obtain ⟨d, u⟩ := c
    have hd : d ≠ a := h (d, u) (by simp)
    have ih := ih (fun c hc => h c (by simp [hc]))
    unfold Memory.insert
    split
    · rfl
    · simp only [Memory.lookup, ih]
      split_ifs <;> first | rfl | omega

theorem Memory.lookup_filter (m : Memory) (a b : Nat) :
    Memory.lookup (m.filter (fun c => c.1 != a)) b = if a = b then Memory.blank b else Memory.lookup m b := by
  induction m with
  | nil => simp [Memory.lookup]
  | cons c m ih =>
    obtain ⟨d, u⟩ := c
    by_cases hd : d = a
    · subst hd
      simp only [List.filter_cons, bne_self_eq_false, Bool.false_eq_true, if_false, ih, Memory.lookup]
      split_ifs <;> rfl
    · simp only [List.filter_cons, bne_iff_ne, ne_eq, hd, not_false_eq_true, if_true, Memory.lookup, ih]
      split_ifs <;> first | rfl | omega

/-- A read after a write, for addresses below 4096, of any list of cells. -/
theorem Memory.lookup_put (m : Memory) (a : Nat) (v : Byte) (b : Nat) :
    Memory.lookup (Memory.put m a v) b = if a = b then v else Memory.lookup m b := by
  unfold Memory.put
  simp only
  split
  · rename_i hv
    rw [Memory.lookup_filter]
    split_ifs with hab
    · rw [hv, hab]
    · rfl
  · rw [Memory.lookup_insert _ _ _ (fun c hc => by simpa using (List.mem_filter.mp hc).2), Memory.lookup_filter]
    split_ifs <;> rfl

/-- `MemRead` after `MemWrite`: the byte written at the addresses that reduce to the same one, else the old byte. -/
@[simp] theorem Memory.read_write (m : Memory) (a : Nat) (v : Byte) (b : Nat) :
    Memory.read (Memory.write m a v) b = if a % 4096 = b % 4096 then v else Memory.read m b :=
  Memory.lookup_put m _ v _

/-- A read depends on its address modulo 4096 only. -/
theorem Memory.read_congr (m : Memory) {a b : Nat} (h : a % 4096 = b % 4096) : Memory.read m a = Memory.read m b :=
  congrArg (Memory.lookup m) h

@[simp] theorem Memory.readBytes_length (m : Memory) (a n : Nat) : (Memory.readBytes m a n).length = n := by
  simp [Memory.readBytes]

theorem Memory.readBytes_getElem (m : Memory) (a n k : Nat) (h : k < (Memory.readBytes m a n).length) :
    (Memory.readBytes m a n)[k] = Memory.read m (a + k) := by
  simp [Memory.readBytes]

/-- Reading an address that none of the written bytes reduces to. -/
theorem Memory.read_writeBytes_other (vs : List Byte) (m : Memory) (a b : Nat)
    (h : ∀ k < vs.length, (a + k) % 4096 ≠ b % 4096) :
    Memory.read (Memory.writeBytes m a vs) b = Memory.read m b := by
  induction vs generalizing m a with
  | nil => rfl
  | cons v vs ih =>
    have h0 : a % 4096 ≠ b % 4096 := h 0 (by simp)
    rw [Memory.writeBytes, ih _ _ (fun k hk => by
      have := h (k + 1) (by simpa using hk)
      rwa [show a + 1 + k = a + (k + 1) by omega])]
    simp [h0]

/-- Reading back one of the bytes written, at most 4096 of them so that none is overwritten by a later one. -/
theorem Memory.read_writeBytes (vs : List Byte) (m : Memory) (a b k : Nat) (hk : k < vs.length)
    (hlen : vs.length ≤ 4096) (hb : b % 4096 = (a + k) % 4096) :
    Memory.read (Memory.writeBytes m a vs) b = vs[k] := by
  induction vs generalizing m a k with
  | nil => simp at hk
  | cons v vs ih =>
    simp only [List.length_cons] at hk hlen
    rw [Memory.writeBytes]
    cases k with
    | zero =>
      rw [Memory.read_writeBytes_other]
      · simp; omega
      · intro j hj; omega
    | succ k => exact ih _ _ k (by omega) (by omega) (by rw [hb]; congr 1; omega)

/-! ### The canonical form -/

theorem Memory.mem_insert {m : Memory} {a : Nat} {v : Byte} {c : Host.Cell} (h : c ∈ Memory.insert m a v) :
    c = (a, v) ∨ c ∈ m := by
  induction m with
  | nil => simpa [Memory.insert] using h
  | cons d m ih =>
    obtain ⟨b, u⟩ := d
    unfold Memory.insert at h
    split at h
    · simpa using h
    · rcases List.mem_cons.mp h with h | h
      · exact .inr (by simp [h])
      · rcases ih h with h | h
        · exact .inl h
        · exact .inr (by simp [h])

theorem Memory.pairwise_insert {m : Memory} {a : Nat} {v : Byte} (hm : m.Pairwise (fun c d => c.1 < d.1))
    (h : ∀ c ∈ m, c.1 ≠ a) : (Memory.insert m a v).Pairwise (fun c d => c.1 < d.1) := by
  induction m with
  | nil => simp [Memory.insert]
  | cons d m ih =>
    obtain ⟨b, u⟩ := d
    have hb : b ≠ a := h (b, u) (by simp)
    rw [List.pairwise_cons] at hm
    unfold Memory.insert
    split
    · rename_i hab
      refine List.pairwise_cons.mpr ⟨?_, List.pairwise_cons.mpr hm⟩
      intro c hc
      rcases List.mem_cons.mp hc with rfl | hc
      · exact hab
      · exact lt_trans hab (hm.1 c hc)
    · refine List.pairwise_cons.mpr ⟨?_, ih hm.2 (fun c hc => h c (by simp [hc]))⟩
      intro c hc
      rcases Memory.mem_insert hc with rfl | hc
      · show b < a; omega
      · exact hm.1 c hc

theorem Memory.wf_put {m : Memory} (h : Memory.wf m) {a : Nat} (ha : a < Config.memSize) (v : Byte) :
    Memory.wf (Memory.put m a v) := by
  have hf : Memory.wf (m.filter (fun c => c.1 != a)) :=
    ⟨h.1.filter _, fun c hc => h.2 c (List.mem_filter.mp hc).1⟩
  unfold Memory.put
  simp only
  split
  · exact hf
  · rename_i hv
    refine ⟨Memory.pairwise_insert hf.1 (fun c hc => by simpa using (List.mem_filter.mp hc).2), ?_⟩
    intro c hc
    rcases Memory.mem_insert hc with rfl | hc
    · exact ⟨ha, hv⟩
    · exact hf.2 c hc

/-- `MemWrite` keeps the canonical form. -/
theorem Memory.wf_write {m : Memory} (h : Memory.wf m) (a : Nat) (v : Byte) : Memory.wf (Memory.write m a v) :=
  Memory.wf_put h (Nat.mod_lt _ (by decide)) v

/-- A sequence of writes keeps the canonical form. -/
theorem Memory.wf_writeBytes {m : Memory} (h : Memory.wf m) (a : Nat) (vs : List Byte) :
    Memory.wf (Memory.writeBytes m a vs) := by
  induction vs generalizing m a with
  | nil => exact h
  | cons v vs ih => exact ih (Memory.wf_write h a v) (a + 1)

/-- The memory of the reset state, which lists nothing, has the canonical form. -/
theorem Memory.wf_reset : Memory.wf State.reset.memory := by decide

/-- Memories in canonical form that read the same everywhere are the same data. -/
theorem Memory.eq_of_lookup {m m' : Memory} (h : Memory.wf m) (h' : Memory.wf m')
    (heq : ∀ a < Config.memSize, Memory.lookup m a = Memory.lookup m' a) : m = m' := by
  have below : ∀ (m : Memory) (a : Nat), (∀ c ∈ m, a < c.1) → Memory.lookup m a = Memory.blank a := by
    intro m a hm
    induction m with
    | nil => rfl
    | cons c m ih =>
      have := hm c (by simp)
      rw [Memory.lookup, if_neg (by omega), ih (fun c hc => hm c (by simp [hc]))]
  induction m generalizing m' with
  | nil =>
    cases m' with
    | nil => rfl
    | cons c m' =>
      have hc := h'.2 c (by simp)
      exact absurd ((heq c.1 hc.1).symm.trans rfl) (by simpa [Memory.lookup] using hc.2)
  | cons c m ih =>
    have hc := h.2 c (by simp)
    have hp := List.pairwise_cons.mp h.1
    cases m' with
    | nil => exact absurd (heq c.1 hc.1) (by simpa [Memory.lookup] using hc.2)
    | cons d m' =>
      have hd := h'.2 d (by simp)
      have hp' := List.pairwise_cons.mp h'.1
      have hcd : c.1 = d.1 := by
        rcases Nat.lt_trichotomy c.1 d.1 with hlt | heq' | hlt
        · have := heq c.1 hc.1
          rw [below (d :: m') c.1 (by
            intro e he
            rcases List.mem_cons.mp he with rfl | he
            · exact hlt
            · exact lt_trans hlt (hp'.1 e he))] at this
          exact absurd this (by simpa [Memory.lookup] using hc.2)
        · exact heq'
        · have := heq d.1 hd.1
          rw [below (c :: m) d.1 (by
            intro e he
            rcases List.mem_cons.mp he with rfl | he
            · exact hlt
            · exact lt_trans hlt (hp.1 e he))] at this
          exact absurd this.symm (by simpa [Memory.lookup] using hd.2)
      have hv : c.2 = d.2 := by
        have := heq c.1 hc.1
        simpa [Memory.lookup, hcd] using this
      have hcd' : c = d := Prod.ext hcd hv
      subst hcd'
      rw [ih ⟨hp.2, fun e he => h.2 e (by simp [he])⟩ ⟨hp'.2, fun e he => h'.2 e (by simp [he])⟩]
      intro a ha
      by_cases hac : c.1 = a
      · rw [below m a (fun e he => hac ▸ hp.1 e he), below m' a (fun e he => hac ▸ hp'.1 e he)]
      · simpa [Memory.lookup, hac] using heq a ha

end Sys2Proof.Machine
end

