-- ==== Sys2Proof/Laws/Ops.lean ====
section
/-!
SUPPORT. The shared operations: registers, flags, skips, the call stack, keys, breakpoints, and the sprite positions.
-/

namespace Sys2Proof.Machine

/-! ### Registers -/

@[simp] theorem State.v_setV (s : State) (r q : RegNum) (b : Byte) :
    (s.setV r b).v q = if q = r then b else s.v q := by
  simp only [State.v, State.setV, Vector.getElem_set, Fin.val_eq_val]
  split_ifs <;> first | rfl | simp_all

/-- Two states with the same register file read the same registers. -/
theorem State.v_congr {s t : State} (h : t.registers = s.registers) (r : RegNum) : t.v r = s.v r := by
  simp [State.v, h]

@[simp] theorem State.v_setFlag (s : State) (c : Bool) (q : RegNum) :
    (s.setFlag c).v q = if q = 15 then flagByte c else s.v q := State.v_setV s vf q _

@[simp] theorem flagByte_toNat (c : Bool) : (flagByte c).toNat = if c then 1 else 0 := by cases c <;> rfl

/-- Everything the two statements of a flag-writing instruction do to the registers (41_alu.md R84). -/
theorem State.v_flagThenResult (s : State) (x y q : RegNum) (flag : Byte → Byte → Bool) (result : Byte → Byte → Byte) :
    (s.flagThenResult x y flag result).v q =
      let f := flagByte (flag (s.v x) (s.v y))
      if q = x then result (if x = 15 then f else s.v x) (if y = 15 then f else s.v y)
      else if q = 15 then f else s.v q := by
  simp [State.flagThenResult]

theorem fillRegisters_getElem (v : Vector Byte 16) (k : Nat) (bs : List Byte) (j : Nat) (hj : j < 16) :
    (fillRegisters v k bs)[j] = if h : k ≤ j ∧ j - k < bs.length then bs[j - k] else v[j] := by
  induction bs generalizing v k with
  | nil => simp [fillRegisters]
  | cons b bs ih =>
    rw [fillRegisters, ih]
    rcases Nat.lt_trichotomy j k with h | h | h
    · rw [dif_neg (by omega), dif_neg (by omega)]
      rw [Vector.getElem_setIfInBounds, if_neg (by omega)]
    · subst h
      rw [dif_neg (by omega), dif_pos (by simp)]
      simp
    · by_cases hlt : j - (k + 1) < bs.length
      · rw [dif_pos ⟨by omega, hlt⟩, dif_pos ⟨by omega, by simp; omega⟩]
        simp [show j - k = (j - (k + 1)) + 1 by omega]
      · rw [dif_neg (by omega), dif_neg (by simp; omega)]
        rw [Vector.getElem_setIfInBounds, if_neg (by omega)]

/-- The registers Fx55 stores, one by one (42_index_memory.md R90). -/
theorem State.registersUpTo_length (s : State) (x : RegNum) : (s.registersUpTo x).length = x.val + 1 := by
  simp [State.registersUpTo]

theorem State.registersUpTo_getElem (s : State) (x : RegNum) (k : Nat) (h : k < (s.registersUpTo x).length) :
    (s.registersUpTo x)[k] = s.v ⟨k, by have := s.registersUpTo_length x; omega⟩ := by
  simp [State.registersUpTo, State.v]

/-! ### Control -/

/-- All a call can do (40_flow.md R66, 60_exceptions.md R124, R125). -/
theorem State.pushAndGo_cases (s : State) (a : Word) :
    (∃ h : s.sp.val < 16, s.pushAndGo a =
        { s with stack := s.stack.set s.sp.val s.pc, sp := ⟨s.sp.val + 1, by omega⟩, pc := a }) ∨
      (s.sp.val = 16 ∧ s.pushAndGo a = s.raise .stackOverflow) := by
  by_cases h : s.sp.val < 16
  · exact .inl ⟨h, by simp [State.pushAndGo, h]⟩
  · exact .inr ⟨by omega, by simp [State.pushAndGo, h]⟩

/-- All a return can do (40_flow.md R64, 60_exceptions.md R124, R126). -/
theorem State.popAndGo_cases (s : State) :
    (∃ h : 0 < s.sp.val, s.popAndGo =
        { s with sp := ⟨s.sp.val - 1, by omega⟩, pc := s.stack[s.sp.val - 1] }) ∨
      (s.sp.val = 0 ∧ s.popAndGo = s.raise .stackUnderflow) := by
  by_cases h : 0 < s.sp.val
  · exact .inl ⟨h, by simp [State.popAndGo, h]⟩
  · exact .inr ⟨by omega, by simp [State.popAndGo, h]⟩

/-! ### Keys -/

/-- What the key scan of Fx0A answers (44_timer_key.md R100). -/
theorem State.leastKey_eq_some (s : State) (k : Nat) :
    s.leastKey = some k ↔ s.keyHeld k = true ∧ ∀ j < k, s.keyHeld j = false := by
  have hk : s.keyHeld k = true → k < 16 := by
    intro h; by_contra hc; simp [State.keyHeld, hc] at h
  unfold State.leastKey
  rw [List.find?_eq_some_iff_getElem]
  constructor
  · rintro ⟨h, i, hi, hik, hj⟩
    simp only [List.getElem_range] at hik hj
    subst hik
    exact ⟨h, fun j hji => by simpa using hj j hji⟩
  · rintro ⟨h, hj⟩
    exact ⟨h, k, by simpa using hk h, by simp, fun j hjk => by simp [hj j hjk]⟩

theorem State.leastKey_eq_none (s : State) : s.leastKey = none ↔ ∀ k, s.keyHeld k = false := by
  unfold State.leastKey
  rw [List.find?_eq_none]
  constructor
  · intro h k
    by_cases hk : k < 16
    · simpa using h k (by simpa using hk)
    · simp [State.keyHeld, hk]
  · intro h k _
    simp [h k]

theorem State.keyHeld_setKey (s : State) (k : Fin 16) (d : Bool) (j : Nat) :
    (s.setKey k d).keyHeld j = if j = k.val then d else s.keyHeld j := by
  unfold State.keyHeld
  by_cases hj : j < 16
  · simp only [hj, dif_pos, State.setKey_keys, Vector.getElem_set]
    split_ifs <;> first | rfl | omega
  · rw [dif_neg hj, dif_neg hj, if_neg (by omega)]

/-! ### Breakpoints -/

@[simp] theorem Breakpoints.mem_add (bp : Breakpoints) (a b : Word) :
    b ∈ Breakpoints.add bp a ↔ b = a ∨ b ∈ bp := by
  induction bp with
  | nil => simp [Breakpoints.add]
  | cons c bp ih =>
    unfold Breakpoints.add
    split_ifs with h1 h2
    · subst h1; simp
    · simp
    · simp [ih]; tauto

@[simp] theorem Breakpoints.mem_remove (bp : Breakpoints) (a b : Word) :
    b ∈ Breakpoints.remove bp a ↔ b ∈ bp ∧ b ≠ a := by
  simp [Breakpoints.remove]

theorem Breakpoints.wf_add {bp : Breakpoints} (h : Breakpoints.wf bp) (a : Word) :
    Breakpoints.wf (Breakpoints.add bp a) := by
  induction bp with
  | nil => simp [Breakpoints.add, Breakpoints.wf]
  | cons c bp ih =>
    have hc := List.pairwise_cons.mp h
    unfold Breakpoints.add
    split_ifs with h1 h2
    · exact h
    · refine List.pairwise_cons.mpr ⟨?_, h⟩
      intro b hb
      rcases List.mem_cons.mp hb with rfl | hb
      · exact h2
      · exact lt_trans h2 (hc.1 b hb)
    · refine List.pairwise_cons.mpr ⟨?_, ih hc.2⟩
      intro b hb
      rcases (Breakpoints.mem_add bp a b).mp hb with rfl | hb
      · have : ¬ c.toNat = b.toNat := fun h => h1 (BitVec.eq_of_toNat_eq h.symm)
        omega
      · exact hc.1 b hb

theorem Breakpoints.wf_remove {bp : Breakpoints} (h : Breakpoints.wf bp) (a : Word) :
    Breakpoints.wf (Breakpoints.remove bp a) := h.filter _

/-! ### Sprites -/

theorem mem_rowPixels (ox oy : Byte) (row : Nat) (b : Byte) (q : Fin 64 × Fin 32) :
    q ∈ rowPixels ox oy row b ↔
      ∃ col < 8, spriteBit b col = true ∧ q = (pixelColumn ox col, pixelRow oy row) := by
  simp only [rowPixels, List.mem_map, List.mem_filter, List.mem_range]
  constructor
  · rintro ⟨col, ⟨h1, h2⟩, rfl⟩; exact ⟨col, h1, h2, rfl⟩
  · rintro ⟨col, h1, h2, rfl⟩; exact ⟨col, ⟨h1, h2⟩, rfl⟩

theorem mem_spritePixels (m : Memory) (addr : Word) (ox oy : Byte) (n : Nat) (q : Fin 64 × Fin 32) :
    q ∈ spritePixels m addr ox oy n ↔
      ∃ row < n, ∃ col < 8, spriteBit (Memory.read m (addr.toNat + row)) col = true ∧
        q = (pixelColumn ox col, pixelRow oy row) := by
  simp [spritePixels, List.mem_flatMap, mem_rowPixels]

/-- Within one sprite of at most 32 rows no pixel is visited twice (43_display.md R96 (2)). -/
theorem nodup_spritePixels (m : Memory) (addr : Word) (ox oy : Byte) (n : Nat) (hn : n ≤ 32) :
    (spritePixels m addr ox oy n).Nodup := by
  unfold spritePixels
  rw [List.nodup_flatMap]
  constructor
  · intro row _
    unfold rowPixels
    refine List.Nodup.map_on ?_ (List.nodup_range.filter _)
    intro c hc d hd h
    have hc := (List.mem_filter.mp hc).1
    have hd := (List.mem_filter.mp hd).1
    rw [List.mem_range] at hc hd
    have := congrArg (fun p => p.1.val) h
    simp only [pixelColumn, Fin.ofNat] at this
    omega
  · refine List.Pairwise.imp_of_mem ?_ (List.nodup_range (n := n))
    intro r q hr hq hne p hp hp'
    rw [List.mem_range] at hr hq
    obtain ⟨c, _, _, rfl⟩ := (mem_rowPixels _ _ _ _ _).mp hp
    obtain ⟨d, _, _, h⟩ := (mem_rowPixels _ _ _ _ _).mp hp'
    have := congrArg (fun p => p.2.val) h
    simp only [pixelRow, Fin.ofNat] at this
    omega

end Sys2Proof.Machine
end

