-- ==== Sys2Proof/Laws/HostOps.lean ====
section
/-!
SUPPORT. What each host operation does, said once.
-/

namespace Sys2Proof.Machine

variable (s : State)

/-! ### Ticks, keys, ROMs -/

/-- Natural subtraction stops at 0, as the count down does. -/
@[simp] theorem countDown_toNat (b : Byte) : (countDown b).toNat = b.toNat - 1 := by
  unfold countDown
  split
  · subst b; rfl
  · rename_i h
    have : b.toNat ≠ 0 := fun h' => h (BitVec.eq_of_toNat_eq h')
    bv_omega

/-- Both cases of a tick. -/
theorem State.tick_cases :
    (s.running = true ∧ s.tick = (s.setDelay (countDown s.delayTimer)).setSound (countDown s.soundTimer)) ∨
      (s.running = false ∧ s.tick = s) := by
  unfold State.tick
  cases s.running <;> simp

/-- Both cases of a key report. -/
theorem State.reportKey_cases (k : Int) (down : Bool) :
    (∃ j : Fin 16, (j.val : Int) = k ∧ s.reportKey k down = s.setKey j down) ∨
      ((∀ j : Fin 16, (j.val : Int) ≠ k) ∧ s.reportKey k down = s) := by
  unfold State.reportKey
  split
  · rename_i h
    have hk : k.toNat < 16 := by omega
    refine .inl ⟨⟨k.toNat, hk⟩, Int.toNat_of_nonneg h.1, ?_⟩
    congr 1
    exact Fin.ext (Nat.mod_eq_of_lt hk)
  · exact .inr ⟨fun j hj => by omega, rfl⟩

/-- Which ROMs fit. -/
@[simp] theorem romFits_iff (rom : List Byte) : romFits rom = true ↔ rom.length ≤ 3584 :=
  show decide (rom.length ≤ 3584) = true ↔ _ from decide_eq_true_iff

/-- Both cases of a ROM load. -/
theorem State.loadRom_cases (rom : List Byte) :
    (rom.length ≤ 3584 ∧
        s.loadRom rom = (s.setMemory (Memory.writeBytes s.memory Config.progBase rom)).setRunning true) ∨
      (3584 < rom.length ∧ s.loadRom rom = s) := by
  unfold State.loadRom
  split
  · rename_i h; exact .inl ⟨(romFits_iff rom).mp h, rfl⟩
  · rename_i h; exact .inr ⟨Nat.lt_of_not_le fun h' => h ((romFits_iff rom).mpr h'), rfl⟩

/-! ### State load -/

variable (p : Snapshot)

@[simp] theorem State.load_memory : (s.load p).memory = Memory.writeBytes [] 0 p.memory := by simp only [State.load]
@[simp] theorem State.load_registers : (s.load p).registers = p.registers := by simp only [State.load]
@[simp] theorem State.load_index : (s.load p).index = p.index := by simp only [State.load]
@[simp] theorem State.load_pc : (s.load p).pc = p.pc := by simp only [State.load]
@[simp] theorem State.load_stack : (s.load p).stack = p.stack := by simp only [State.load]
@[simp] theorem State.load_sp : (s.load p).sp = Fin.ofNat 17 p.sp := by simp only [State.load]
@[simp] theorem State.load_delayTimer : (s.load p).delayTimer = p.delayTimer := by simp only [State.load]
@[simp] theorem State.load_soundTimer : (s.load p).soundTimer = p.soundTimer := by simp only [State.load]
@[simp] theorem State.load_framebuffer : (s.load p).framebuffer = framebufferOf p.pixels := by simp only [State.load]
@[simp] theorem State.load_changed : (s.load p).changed = p.changed := by simp only [State.load]
@[simp] theorem State.load_keys :
    (s.load p).keys = Vector.ofFn (fun k : Fin 16 => p.keys.getD k.val 0 == 1) := by simp only [State.load]
@[simp] theorem State.load_breakpoints : (s.load p).breakpoints = p.breakpoints.foldl Breakpoints.add [] := by
  simp only [State.load]
@[simp] theorem State.load_running : (s.load p).running = p.running := by simp only [State.load]
@[simp] theorem State.load_rng : (s.load p).rng = ⟨p.seed, s.rng.draws⟩ := by simp only [State.load]
@[simp] theorem State.load_fault : (s.load p).fault = p.fault := by simp only [State.load]

/-- Which pixels of a list of pixel values are set. -/
theorem mem_litPixels (pixels : List Nat) (px : Fin 64) (py : Fin 32) :
    (px, py) ∈ litPixels pixels ↔ pixels.getD (py.val * 64 + px.val) 0 = 1 := by
  unfold litPixels
  simp only [List.mem_map, List.mem_filter, List.mem_range, beq_iff_eq]
  constructor
  · rintro ⟨i, ⟨hi, hg⟩, e⟩
    simp [Prod.ext_iff, Fin.ext_iff, Fin.ofNat] at e
    rwa [show py.val * 64 + px.val = i by omega]
  · intro hg
    refine ⟨py.val * 64 + px.val, ⟨by omega, hg⟩, ?_⟩
    simp [Prod.ext_iff, Fin.ext_iff, Fin.ofNat]
    omega

/-- No pixel is set twice. -/
theorem nodup_litPixels (pixels : List Nat) : (litPixels pixels).Nodup := by
  unfold litPixels
  rw [List.nodup_map_iff_inj_on (List.Nodup.filter _ List.nodup_range)]
  intro i hi j hj e
  simp only [List.mem_filter, List.mem_range] at hi hj
  simp [Fin.ext_iff, Fin.ofNat] at e
  omega

/-- The framebuffer of a list of pixel values shows exactly those that are 1. -/
theorem pixel_framebufferOf (pixels : List Nat) (px : Fin 64) (py : Fin 32) :
    (framebufferOf pixels).pixel px py = true ↔ pixels.getD (py.val * 64 + px.val) 0 = 1 := by
  rw [framebufferOf, Framebuffer.pixel_foldl_flip _ (nodup_litPixels _), ← mem_litPixels]
  simp

/-- A set built from a list of addresses has exactly them, beside what it had. -/
theorem Breakpoints.mem_foldl_add (l : List Word) (bp : Breakpoints) (a : Word) :
    a ∈ l.foldl Breakpoints.add bp ↔ a ∈ l ∨ a ∈ bp := by
  induction l generalizing bp with
  | nil => simp
  | cons b l ih => simp [ih]; tauto

/-- A set built from a list of addresses is in canonical form. -/
theorem Breakpoints.wf_foldl_add (l : List Word) {bp : Breakpoints} (h : Breakpoints.wf bp) :
    Breakpoints.wf (l.foldl Breakpoints.add bp) := by
  induction l generalizing bp with
  | nil => exact h
  | cons a l ih => exact ih (Breakpoints.wf_add h a)

end Sys2Proof.Machine
end

