-- ==== Sys2Proof/Laws/PerInstr.lean ====
section
/-!
SUPPORT. Statements about every instruction as syntax, one lemma per constructor. The family `TableRow` says that the word
the encoder gives an instruction is one of its row of the opcode map (30_encoding.md R55, R56).
-/

namespace Sys2Proof

/-- Masking a word with 0xF000 leaves its top nibble in place. -/
theorem and_topNibble (w : Word) : w &&& 0xF000 = BitVec.ofNat 16 (w.toNat / 4096 * 4096) := by
  apply BitVec.eq_of_toNat_eq
  have hw := w.isLt
  rw [BitVec.toNat_and, BitVec.toNat_ofNat, Nat.mod_eq_of_lt (by omega)]
  apply Nat.eq_of_testBit_eq
  intro i
  rw [Nat.testBit_and, show w.toNat / 4096 * 4096 = (w.toNat >>> 12) <<< 12 by
    rw [Nat.shiftLeft_eq, Nat.shiftRight_eq_div_pow], Nat.testBit_shiftLeft, Nat.testBit_shiftRight]
  by_cases h : 12 ≤ i
  · rw [show 12 + (i - 12) = i by omega]
    by_cases h16 : i < 16
    · interval_cases i <;> simp <;> intros <;> decide
    · rw [Nat.testBit_lt_two_pow (Nat.lt_of_lt_of_le hw (Nat.pow_le_pow_right (by decide) (by omega)))]
      simp
  · have : i < 12 := by omega
    interval_cases i <;> simp <;> intros <;> decide

/-- The top nibble of a word written as `op * 4096` plus twelve low bits. -/
theorem ofNat_and_topNibble (op k : Nat) (hop : op < 16) (hk : k < 4096) :
    BitVec.ofNat 16 (op * 4096 + k) &&& 0xF000 = BitVec.ofNat 16 (op * 4096) := by
  rw [and_topNibble, BitVec.toNat_ofNat, Nat.mod_eq_of_lt (by omega), show (op * 4096 + k) / 4096 = op by omega]

theorem encodeNNN_top (op : Nat) (nnn : Imm12) (hop : op < 16) :
    encodeNNN op nnn &&& 0xF000 = BitVec.ofNat 16 (op * 4096) :=
  ofNat_and_topNibble op _ hop nnn.isLt

theorem encodeXNN_top (op : Nat) (x : RegNum) (nn : Byte) (hop : op < 16) :
    encodeXNN op x nn &&& 0xF000 = BitVec.ofNat 16 (op * 4096) := by
  have := nn.isLt
  rw [encodeXNN, Nat.add_assoc]
  exact ofNat_and_topNibble op _ hop (by omega)

theorem encodeXYN_top (op : Nat) (x y : RegNum) (n : Imm4) (hop : op < 16) :
    encodeXYN op x y n &&& 0xF000 = BitVec.ofNat 16 (op * 4096) := by
  have := n.isLt
  rw [encodeXYN, Nat.add_assoc, Nat.add_assoc]
  exact ofNat_and_topNibble op _ hop (by omega)

/-- The instruction's word is one of its row, and its row is one of the opcode map. -/
def Laws.TableRow.Statement (i : Instr) : Prop := encode i &&& i.row.mask = i.row.value ∧ i.row ∈ opcodeMap

theorem Laws.TableRow.cls : Laws.TableRow.Statement .cls :=
  ⟨by decide, by simp [opcodeMap, Instr.row]⟩
theorem Laws.TableRow.ret : Laws.TableRow.Statement .ret :=
  ⟨by decide, by simp [opcodeMap, Instr.row]⟩
theorem Laws.TableRow.jp (nnn : Imm12) : Laws.TableRow.Statement (.jp nnn) :=
  ⟨encodeNNN_top 1 nnn (by decide), by simp [opcodeMap, Instr.row]⟩
theorem Laws.TableRow.call (nnn : Imm12) : Laws.TableRow.Statement (.call nnn) :=
  ⟨encodeNNN_top 2 nnn (by decide), by simp [opcodeMap, Instr.row]⟩
theorem Laws.TableRow.seImm (x : RegNum) (nn : Byte) : Laws.TableRow.Statement (.seImm x nn) :=
  ⟨encodeXNN_top 3 x nn (by decide), by simp [opcodeMap, Instr.row]⟩
theorem Laws.TableRow.sneImm (x : RegNum) (nn : Byte) : Laws.TableRow.Statement (.sneImm x nn) :=
  ⟨encodeXNN_top 4 x nn (by decide), by simp [opcodeMap, Instr.row]⟩
theorem Laws.TableRow.seReg (x y : RegNum) : Laws.TableRow.Statement (.seReg x y) :=
  ⟨by revert x y; decide, by simp [opcodeMap, Instr.row]⟩
theorem Laws.TableRow.ldImm (x : RegNum) (nn : Byte) : Laws.TableRow.Statement (.ldImm x nn) :=
  ⟨encodeXNN_top 6 x nn (by decide), by simp [opcodeMap, Instr.row]⟩
theorem Laws.TableRow.addImm (x : RegNum) (nn : Byte) : Laws.TableRow.Statement (.addImm x nn) :=
  ⟨encodeXNN_top 7 x nn (by decide), by simp [opcodeMap, Instr.row]⟩
theorem Laws.TableRow.ldReg (x y : RegNum) : Laws.TableRow.Statement (.ldReg x y) :=
  ⟨by revert x y; decide, by simp [opcodeMap, Instr.row]⟩
theorem Laws.TableRow.orReg (x y : RegNum) : Laws.TableRow.Statement (.orReg x y) :=
  ⟨by revert x y; decide, by simp [opcodeMap, Instr.row]⟩
theorem Laws.TableRow.andReg (x y : RegNum) : Laws.TableRow.Statement (.andReg x y) :=
  ⟨by revert x y; decide, by simp [opcodeMap, Instr.row]⟩
theorem Laws.TableRow.xorReg (x y : RegNum) : Laws.TableRow.Statement (.xorReg x y) :=
  ⟨by revert x y; decide, by simp [opcodeMap, Instr.row]⟩
theorem Laws.TableRow.addReg (x y : RegNum) : Laws.TableRow.Statement (.addReg x y) :=
  ⟨by revert x y; decide, by simp [opcodeMap, Instr.row]⟩
theorem Laws.TableRow.sub (x y : RegNum) : Laws.TableRow.Statement (.sub x y) :=
  ⟨by revert x y; decide, by simp [opcodeMap, Instr.row]⟩
theorem Laws.TableRow.shr (x y : RegNum) : Laws.TableRow.Statement (.shr x y) :=
  ⟨by revert x y; decide, by simp [opcodeMap, Instr.row]⟩
theorem Laws.TableRow.subn (x y : RegNum) : Laws.TableRow.Statement (.subn x y) :=
  ⟨by revert x y; decide, by simp [opcodeMap, Instr.row]⟩
theorem Laws.TableRow.shl (x y : RegNum) : Laws.TableRow.Statement (.shl x y) :=
  ⟨by revert x y; decide, by simp [opcodeMap, Instr.row]⟩
theorem Laws.TableRow.sneReg (x y : RegNum) : Laws.TableRow.Statement (.sneReg x y) :=
  ⟨by revert x y; decide, by simp [opcodeMap, Instr.row]⟩
theorem Laws.TableRow.ldI (nnn : Imm12) : Laws.TableRow.Statement (.ldI nnn) :=
  ⟨encodeNNN_top 10 nnn (by decide), by simp [opcodeMap, Instr.row]⟩
theorem Laws.TableRow.jpV0 (nnn : Imm12) : Laws.TableRow.Statement (.jpV0 nnn) :=
  ⟨encodeNNN_top 11 nnn (by decide), by simp [opcodeMap, Instr.row]⟩
theorem Laws.TableRow.rnd (x : RegNum) (nn : Byte) : Laws.TableRow.Statement (.rnd x nn) :=
  ⟨encodeXNN_top 12 x nn (by decide), by simp [opcodeMap, Instr.row]⟩
theorem Laws.TableRow.drw (x y : RegNum) (n : Imm4) : Laws.TableRow.Statement (.drw x y n) :=
  ⟨encodeXYN_top 13 x y n (by decide), by simp [opcodeMap, Instr.row]⟩
theorem Laws.TableRow.skp (x : RegNum) : Laws.TableRow.Statement (.skp x) :=
  ⟨by revert x; decide, by simp [opcodeMap, Instr.row]⟩
theorem Laws.TableRow.sknp (x : RegNum) : Laws.TableRow.Statement (.sknp x) :=
  ⟨by revert x; decide, by simp [opcodeMap, Instr.row]⟩
theorem Laws.TableRow.ldVxDt (x : RegNum) : Laws.TableRow.Statement (.ldVxDt x) :=
  ⟨by revert x; decide, by simp [opcodeMap, Instr.row]⟩
theorem Laws.TableRow.ldVxK (x : RegNum) : Laws.TableRow.Statement (.ldVxK x) :=
  ⟨by revert x; decide, by simp [opcodeMap, Instr.row]⟩
theorem Laws.TableRow.ldDtVx (x : RegNum) : Laws.TableRow.Statement (.ldDtVx x) :=
  ⟨by revert x; decide, by simp [opcodeMap, Instr.row]⟩
theorem Laws.TableRow.ldStVx (x : RegNum) : Laws.TableRow.Statement (.ldStVx x) :=
  ⟨by revert x; decide, by simp [opcodeMap, Instr.row]⟩
theorem Laws.TableRow.addI (x : RegNum) : Laws.TableRow.Statement (.addI x) :=
  ⟨by revert x; decide, by simp [opcodeMap, Instr.row]⟩
theorem Laws.TableRow.ldF (x : RegNum) : Laws.TableRow.Statement (.ldF x) :=
  ⟨by revert x; decide, by simp [opcodeMap, Instr.row]⟩
theorem Laws.TableRow.ldB (x : RegNum) : Laws.TableRow.Statement (.ldB x) :=
  ⟨by revert x; decide, by simp [opcodeMap, Instr.row]⟩
theorem Laws.TableRow.stRegs (x : RegNum) : Laws.TableRow.Statement (.stRegs x) :=
  ⟨by revert x; decide, by simp [opcodeMap, Instr.row]⟩
theorem Laws.TableRow.ldRegs (x : RegNum) : Laws.TableRow.Statement (.ldRegs x) :=
  ⟨by revert x; decide, by simp [opcodeMap, Instr.row]⟩

end Sys2Proof
end

