-- ==== Sys2Proof/Laws/Step.lean ====
section
/-!
SUPPORT. Everything one step can do, said once.
-/

namespace Sys2Proof.Machine

/-- The four ways a step goes (45_host_operations.md R104): halted, at a breakpoint, on a word that is no instruction, on
an instruction. -/
theorem step_cases (s : State) :
    (s.running = false ∧ step s = .next s) ∨
      (s.running = true ∧ s.pc ∈ s.breakpoints ∧ step s = .next (s.setRunning false)) ∨
      (s.running = true ∧ s.pc ∉ s.breakpoints ∧
        ∃ e, decode s.fetchWord = .error e ∧ step s = .next s.advancePc) ∨
      (s.running = true ∧ s.pc ∉ s.breakpoints ∧
        ∃ i, decode s.fetchWord = .ok i ∧ step s = exec i s.advancePc) := by
  unfold step cycle
  cases hr : s.running with
  | false => exact .inl ⟨rfl, by simp⟩
  | true =>
    by_cases hb : s.pc ∈ s.breakpoints
    · exact .inr (.inl ⟨rfl, hb, by simp [hb]⟩)
    · cases hd : decode s.fetchWord with
      | error e => exact .inr (.inr (.inl ⟨rfl, hb, e, rfl, by simp [hb]⟩))
      | ok i => exact .inr (.inr (.inr ⟨rfl, hb, i, rfl, by simp [hb]⟩))

/-- The same split for the event a cycle returns (60_exceptions.md R131). -/
theorem cycleEvent_cases (s : State) :
    (s.running = false ∧ cycleEvent s = .idle) ∨
      (s.running = true ∧ s.pc ∈ s.breakpoints ∧ cycleEvent s = .breakpointHit s.pc) ∨
      (s.running = true ∧ s.pc ∉ s.breakpoints ∧
        ∃ e, decode s.fetchWord = .error e ∧ cycleEvent s = .unknownOpcode s.pc s.fetchWord) ∨
      (s.running = true ∧ s.pc ∉ s.breakpoints ∧
        ∃ i, decode s.fetchWord = .ok i ∧ cycleEvent s = execEvent i s.advancePc) := by
  unfold cycleEvent
  cases hr : s.running with
  | false => exact .inl ⟨rfl, by simp⟩
  | true =>
    by_cases hb : s.pc ∈ s.breakpoints
    · exact .inr (.inl ⟨rfl, hb, by simp [hb]⟩)
    · cases hd : decode s.fetchWord with
      | error e => exact .inr (.inr (.inl ⟨rfl, hb, e, rfl, by simp [hb]⟩))
      | ok i => exact .inr (.inr (.inr ⟨rfl, hb, i, rfl, by simp [hb]⟩))

/-- All the key wait can do (44_timer_key.md R100). -/
theorem execLdVxK_cases (x : RegNum) (s : State) :
    (∃ k, s.leastKey = some k ∧ execLdVxK x s = .next (s.setV x (BitVec.ofNat 8 k))) ∨
      (s.leastKey = none ∧ execLdVxK x s = .next (s.setPc s.pc0)) := by
  unfold execLdVxK
  cases h : s.leastKey with
  | some k => exact .inl ⟨k, rfl, rfl⟩
  | none => exact .inr ⟨rfl, rfl⟩

end Sys2Proof.Machine
end

