-- ==== Sys2Proof/Tests/Slice0.lean ====
section
/-!
SUPPORT. Tests: well-formedness checks that refuse, decoding of words written out bit by bit, single steps whose expected
results are those of 95_test_vectors.md (each test names its vector), host operations, and a witness for the hypotheses of
each statement that has any.
-/

namespace Sys2Proof.Tests

open Sys2Proof.Machine

/-! ### Small states to test on -/

/-- Right after power-on, with a word at 0x200 and the engine Running. -/
def booted (w : Word) : State := State.reset.withFetchWord 16 w.toNat

/-- The state a step ends in. -/
def next? (o : Host.Outcome State Fault Refusal) : Option State :=
  match o with
  | .next t => some t
  | .fault _ => none
  | .refused _ => none

/-- What is seen after one step on a word, from a state set up from the booted one. -/
def after {α : Type} (w : Word) (setUp : State → State) (look : State → α) : Option α :=
  (next? (step (setUp (booted w)))).map look

/-- What is seen after a schedule of host operations. -/
def afterOps {α : Type} (ops : List HostOp) (s : State) (look : State → α) : Option α :=
  (next? (runSchedule ops s)).map look

/-- Two registers set, the second last. -/
def with2 (r : RegNum) (a : Byte) (q : RegNum) (b : Byte) (s : State) : State := (s.setV r a).setV q b

/-- Bytes of memory set from an address up. -/
def withBytes (a : Nat) (bs : List Byte) (s : State) : State := s.setMemory (Memory.writeBytes s.memory a bs)

/-- The bytes at three addresses. -/
def three (a : Nat) (s : State) : List Byte :=
  [Memory.read s.memory a, Memory.read s.memory (a + 1), Memory.read s.memory (a + 2)]

/-- The pixels that are on. -/
def lit (s : State) : List (Nat × Nat) :=
  (List.range 32).flatMap fun py =>
    ((List.range 64).filter fun px => s.framebuffer.pixel (Fin.ofNat 64 px) (Fin.ofNat 32 py)).map fun px => (px, py)

/-- A machine with sp entries on its stack, each 0x0345. -/
def withStack (n : Fin 17) (s : State) : State := { s with sp := n, stack := Vector.replicate 16 0x0345 }

/-! ### Well-formedness: an ill-formed term for each check -/

theorem test_word_refused_zeroSpace : recognised 0x01E0 = false := by decide
theorem test_word_refused_fiveSpace : recognised 0x5121 = false := by decide
theorem test_word_refused_eightSpace : recognised 0x8128 = false := by decide
theorem test_word_refused_nineSpace : recognised 0x9121 = false := by decide
theorem test_word_refused_eSpace : recognised 0xE19F = false := by decide
theorem test_word_refused_fSpace : recognised 0xF1FF = false := by decide
theorem test_word_accepted : recognised 0x81F6 = true := by decide

theorem test_rom_refused_too_large : romFits (List.replicate 3585 0) = false := by
  rw [romFits, List.length_replicate]; decide
theorem test_rom_accepted_at_bound : romFits (List.replicate 3584 0) = true := by
  rw [romFits, List.length_replicate]; decide

theorem test_memory_refused_unsorted : ¬Memory.wf [(0x301, 1), (0x300, 2)] := by decide
theorem test_memory_refused_repeated : ¬Memory.wf [(0x300, 1), (0x300, 2)] := by decide
theorem test_memory_refused_reset_byte : ¬Memory.wf [(0x050, 0xF0)] := by decide
theorem test_memory_refused_outside : ¬Memory.wf [(0x1000, 1)] := by decide
theorem test_memory_accepted : Memory.wf [(0x050, 0), (0x300, 1), (0xFFF, 2)] := by decide

theorem test_breakpoints_refused_unsorted : ¬Breakpoints.wf [0x20A, 0x200] := by decide
theorem test_breakpoints_accepted : Breakpoints.wf [0x200, 0x20A] := by decide

theorem test_state_refused : ¬{ State.reset with memory := [(0x300, 0)] }.wf := by decide

/-- A valid snapshot: the state after power-on, saved with pixel (1, 0) on, key 3 held and a breakpoint at 0x20A. -/
def saved : Snapshot where
  memory := List.replicate 4096 0x11
  registers := Vector.replicate 16 7
  index := 0x300
  pc := 0x0204
  stack := Vector.replicate 16 0
  sp := 16
  delayTimer := 3
  soundTimer := 4
  pixels := [0, 1] ++ List.replicate 2046 0
  changed := false
  keys := [0, 0, 0, 1] ++ List.replicate 12 0
  breakpoints := [0x20A]
  running := true
  seed := 5
  fault := .stackOverflow

theorem saved_wf : saved.wf := by
  refine ⟨List.length_replicate, Nat.le_refl 16, ⟨?_, ?_⟩, ?_, ?_⟩
  · show ([0, 1] ++ List.replicate 2046 0).length = 2048
    rw [List.length_append, List.length_replicate]; rfl
  · intro b hb
    rcases List.mem_append.mp hb with h | h
    · clear hb; revert h; revert b; decide
    · rw [(List.mem_replicate.mp h).2]; decide
  · decide
  · decide

theorem test_snapshot_refused_sp : ¬{ saved with sp := 17 }.wf := fun h => absurd h.2.1 (by decide)
theorem test_snapshot_refused_pixel : ¬{ saved with pixels := [2] }.wf := fun h => absurd h.2.2.1.1 (by decide)
theorem test_snapshot_refused_pixel_value : ¬{ saved with pixels := [2] ++ List.replicate 2047 0 }.wf :=
  fun h => absurd (h.2.2.1.2 2 (List.mem_append_left _ (List.mem_singleton.mpr rfl))) (by decide)
theorem test_snapshot_refused_key_value : ¬{ saved with keys := [2] ++ List.replicate 15 0 }.wf :=
  fun h => absurd h.2.2.2.2 (by decide)
theorem test_snapshot_refused_keys : ¬{ saved with keys := [] }.wf := fun h => absurd h.2.2.2.1 (by decide)
theorem test_snapshot_refused_memory : ¬{ saved with memory := [] }.wf := fun h => absurd h.1 (by decide)

/-! ### Decoding: words written out bit by bit from the fields of 30_encoding.md R52, R53, R56 -/

theorem test_decode_flow : decode 0b0010_1010_1011_1100#16 = .ok (.call 0xABC) := by decide
theorem test_decode_skip : decode 0b1001_0001_0010_0000#16 = .ok (.sneReg 1 2) := by decide
theorem test_decode_alu : decode 0b1000_1111_0001_0100#16 = .ok (.addReg 15 1) := by decide
theorem test_decode_alu_shift : decode 0b1000_0001_1111_1110#16 = .ok (.shl 1 15) := by decide
theorem test_decode_random : decode 0b1100_0011_0000_1111#16 = .ok (.rnd 3 0x0F) := by decide
theorem test_decode_index : decode 0b1010_0010_1111_0000#16 = .ok (.ldI 0x2F0) := by decide
theorem test_decode_memory : decode 0b1111_0010_0110_0101#16 = .ok (.ldRegs 2) := by decide
theorem test_decode_display : decode 0b1101_0011_0100_0101#16 = .ok (.drw 3 4 5) := by decide
theorem test_decode_key : decode 0b1110_0010_1010_0001#16 = .ok (.sknp 2) := by decide
theorem test_decode_timer : decode 0b1111_0001_0001_1000#16 = .ok (.ldStVx 1) := by decide
theorem test_decode_bytes : decodeBytes [0x12, 0x34, 0x00] = .ok (.jp 0x234, [0x00]) := by decide
theorem test_decode_bytes_truncated : decodeBytes [0x12] = .error .truncated := by decide

/-! ### Control transfer -/

/-- V-F1. -/
theorem test_jp : after 0x1ABC id (·.pc) = some 0x0ABC := by decide
/-- V-F3. -/
theorem test_jp_odd : after 0x1001 id (·.pc) = some 0x0001 := by decide
/-- V-F5. -/
theorem test_call : after 0x2ABC (withStack 15) (fun t => (t.pc, t.sp, t.stack[15], t.stack[14])) =
    some (0x0ABC, 16, 0x0202, 0x0345) := by decide
/-- V-F6. -/
theorem test_call_overflow : after 0x2ABC (withStack 16) (fun t => (t.pc, t.sp, t.running, t.fault, t.stack[15])) =
    some (0x0200, 16, false, .stackOverflow, 0x0345) := by decide
/-- V-F7. -/
theorem test_ret : after 0x00EE (withStack 1) (fun t => (t.pc, t.sp, t.stack[0])) = some (0x0345, 0, 0x0345) := by decide
/-- V-F9. -/
theorem test_ret_underflow : after 0x00EE id (fun t => (t.pc, t.sp, t.running, t.fault)) =
    some (0x0200, 0, false, .stackUnderflow) := by decide
/-- V-F10. -/
theorem test_seImm_skips : after 0x3A55 (·.setV 10 0x55) (·.pc) = some 0x0204 := by decide
/-- V-F11. -/
theorem test_seImm_stays : after 0x3A55 (·.setV 10 0x54) (·.pc) = some 0x0202 := by decide
/-- V-F12. -/
theorem test_sneImm_stays : after 0x4A55 (·.setV 10 0x55) (·.pc) = some 0x0202 := by decide
/-- V-F13. -/
theorem test_sneImm_skips : after 0x4A55 (·.setV 10 0x54) (·.pc) = some 0x0204 := by decide
/-- V-F14. -/
theorem test_seReg_skips : after 0x5120 (with2 1 7 2 7) (·.pc) = some 0x0204 := by decide
/-- V-F15. -/
theorem test_seReg_stays : after 0x5120 (with2 1 7 2 8) (·.pc) = some 0x0202 := by decide
/-- V-F17. -/
theorem test_sneReg_stays : after 0x9120 (with2 1 7 2 7) (·.pc) = some 0x0202 := by decide
/-- V-F18. -/
theorem test_sneReg_skips : after 0x9120 (with2 1 7 2 8) (·.pc) = some 0x0204 := by decide
/-- V-F21. -/
theorem test_jpV0 : after 0xBFFF (·.setV 0 0xFF) (·.pc) = some 0x10FE := by decide
/-- V-F23. -/
theorem test_pc_wraps :
    (next? (step ({ State.reset with pc := 0xFFFE }.withFetchWord 16 0x3000))).map (·.pc) = some 0x0002 := by decide
/-- V-F24. -/
theorem test_fetch_wraps :
    (next? (step { withBytes 0xFFF [0x12, 0x34] (booted 0) with pc := 0x0FFF })).map (·.pc) = some 0x0234 := by decide

/-! ### Registers and flags -/

/-- V-A1. -/
theorem test_ldImm : after 0x6A55 id (fun t => (t.v 10, t.pc)) = some (0x55, 0x0202) := by decide
/-- V-A3. -/
theorem test_addImm : after 0x7A01 (with2 10 0xFF 15 7) (fun t => (t.v 10, t.v 15)) = some (0x00, 7) := by decide
/-- V-A6. -/
theorem test_ldReg : after 0x8120 (with2 1 1 2 0xAB) (fun t => (t.v 1, t.v 2)) = some (0xAB, 0xAB) := by decide
/-- V-A8. -/
theorem test_orReg : after 0x8121 (fun s => (with2 1 0xF0 2 0x0F s).setV 15 9) (fun t => (t.v 1, t.v 15)) =
    some (0xFF, 9) := by decide
/-- V-A9. -/
theorem test_andReg : after 0x8122 (fun s => (with2 1 0xF3 2 0x3F s).setV 15 9) (fun t => (t.v 1, t.v 15)) =
    some (0x33, 9) := by decide
/-- V-A10. -/
theorem test_xorReg : after 0x8123 (fun s => (with2 1 0xF3 2 0x3F s).setV 15 9) (fun t => (t.v 1, t.v 15)) =
    some (0xCC, 9) := by decide
/-- V-A13. -/
theorem test_addReg : after 0x8124 (fun s => (with2 1 0x7F 2 0x80 s).setV 15 1) (fun t => (t.v 1, t.v 15)) =
    some (0xFF, 0) := by decide
/-- V-X3. -/
theorem test_addReg_reads_flag : after 0x80F4 (with2 0 0xF0 15 0x20) (fun t => (t.v 0, t.v 15)) = some (0xF1, 1) := by
  decide
/-- V-A20. -/
theorem test_sub_equal : after 0x8125 (fun s => (with2 1 7 2 7 s).setV 15 1) (fun t => (t.v 1, t.v 15)) =
    some (0x00, 0) := by decide
/-- V-X7. -/
theorem test_sub_from_flag : after 0x8F15 (with2 15 5 1 3) (fun t => t.v 15) = some 0xFE := by decide
/-- V-A24. -/
theorem test_shr : after 0x8126 (with2 1 0x05 2 0xFF) (fun t => (t.v 1, t.v 2, t.v 15)) = some (0x02, 0xFF, 1) := by decide
/-- V-X12. -/
theorem test_shr_flag : after 0x8F06 (·.setV 15 3) (fun t => t.v 15) = some 0x00 := by decide
/-- V-A29. -/
theorem test_subn : after 0x8127 (fun s => (with2 1 5 2 3 s).setV 15 1) (fun t => (t.v 1, t.v 15)) =
    some (0xFE, 0) := by decide
/-- V-X18. -/
theorem test_subn_reads_flag : after 0x80F7 (with2 0 3 15 5) (fun t => (t.v 0, t.v 15)) = some (0xFE, 1) := by decide
/-- V-A32. -/
theorem test_shl : after 0x812E (with2 1 0x81 2 0x00) (fun t => (t.v 1, t.v 15)) = some (0x02, 1) := by decide
/-- V-X14. -/
theorem test_shl_flag : after 0x8F0E (·.setV 15 0x81) (fun t => t.v 15) = some 0x02 := by decide
/-- V-R2: mask 0 gives 0 whatever the draw. -/
theorem test_rnd_mask : (next? (step ((booted 0xC100).setV 1 9))).map (fun t => t.v 1) = some 0 := by
  have h : step ((booted 0xC100).setV 1 9) = exec (.rnd 1 0) ((booted 0xC100).setV 1 9).advancePc := by rfl
  rw [h]
  show some (State.v (State.setV _ 1 (_ &&& 0)) 1) = some 0
  rw [State.v_setV, if_pos rfl]
  exact congrArg some BitVec.and_zero
/-- R85: one draw, and pc goes on. -/
theorem test_rnd_draws : after 0xC1FF id (fun t => (t.rng.draws, t.pc)) = some (1, 0x0202) := by decide

/-! ### I and memory -/

/-- V-M2. -/
theorem test_ldI : after 0xAFFF id (·.index) = some 0x0FFF := by decide
/-- V-M3. -/
theorem test_addI : after 0xF11E (fun s => (with2 1 1 15 7 s).setIndex 0x0FFF) (fun t => (t.index, t.v 15)) =
    some (0x1000, 7) := by decide
/-- V-M4. -/
theorem test_addI_wraps : after 0xF11E (fun s => (s.setV 1 2).setIndex 0xFFFF) (·.index) = some 0x0001 := by decide
/-- V-M6. -/
theorem test_ldF : after 0xF129 (·.setV 1 0x0A) (·.index) = some 0x0082 := by decide
/-- V-M9. -/
theorem test_ldF_unmasked : after 0xF129 (·.setV 1 0xFF) (·.index) = some 0x054B := by decide
/-- V-M14. -/
theorem test_ldB_wraps : after 0xF133 (fun s => (s.setV 1 123).setIndex 0x0FFF) (fun t => (three 0xFFF t, t.index)) =
    some ([1, 2, 3], 0x0FFF) := by decide
/-- V-M15. -/
theorem test_ldB_reduced : after 0xF133 (fun s => (s.setV 1 45).setIndex 0x1300) (three 0x300) = some [0, 4, 5] := by decide
/-- V-M17. -/
theorem test_stRegs_one : after 0xF055 (fun s => (with2 0 0xAA 1 0xBB s).setIndex 0x300)
    (fun t => (three 0x300 t, t.index)) = some ([0xAA, 0, 0], 0x0301) := by decide
/-- V-M18, its last two registers. -/
theorem test_stRegs_wraps : after 0xF355 (fun s => (with2 2 3 3 4 s).setIndex 0x0FFE)
    (fun t => (three 0x1000 t, t.index)) = some ([3, 4, 0], 0x1002) := by decide
/-- V-M20, with a V4 that must stay. -/
theorem test_ldRegs : after 0xF365 (fun s => (withBytes 0x300 [0x11, 0x22, 0x33, 0x44, 0x55] s).setIndex 0x300)
    (fun t => (t.v 0, t.v 3, t.v 4, t.index)) = some (0x11, 0x44, 0, 0x0304) := by decide
/-- V-M22. -/
theorem test_ldRegs_wraps : after 0xF165 (fun s => (withBytes 0xFFF [0xAB, 0xCD] s).setIndex 0x0FFF)
    (fun t => (t.v 0, t.v 1, t.index)) = some (0xAB, 0xCD, 0x1001) := by decide

/-! ### Display -/

/-- A framebuffer with one pixel on. -/
def onePixel (px : Fin 64) (py : Fin 32) (s : State) : State :=
  { s with framebuffer := Framebuffer.clear.flip px py, changed := false }

/-- V-D1. -/
theorem test_cls : after 0x00E0 (fun s => (onePixel 63 31 s).setV 15 1) (fun t => (lit t, t.changed, t.v 15)) =
    some ([], true, 1) := by decide
/-- V-D2 and S14: the glyph for 0 over a lit corner. -/
theorem test_drw_collides : after 0xD015 (fun s => (onePixel 0 0 s).setIndex 0x050) (fun t => (lit t, t.v 15)) =
    some ([(1, 0), (2, 0), (3, 0), (0, 1), (3, 1), (0, 2), (3, 2), (0, 3), (3, 3), (0, 4), (1, 4), (2, 4), (3, 4)], 1) := by
  decide
/-- V-D4. -/
theorem test_drw_wraps : after 0xD012 (fun s => (withBytes 0x300 [0xC0, 0xC0] (with2 0 62 1 31 s)).setIndex 0x300)
    (fun t => (lit t, t.v 15, t.changed)) = some ([(62, 0), (63, 0), (62, 31), (63, 31)], 0, true) := by decide

/-! ### Keys and timers -/

/-- V-K1. -/
theorem test_skp : after 0xE19E (fun s => (s.setV 1 5).setKey 5 true) (·.pc) = some 0x0204 := by decide
/-- V-K3. -/
theorem test_skp_above_15 : after 0xE19E (fun s => (s.setV 1 0x15).setKey 5 true) (·.pc) = some 0x0202 := by decide
/-- V-K4. -/
theorem test_sknp : after 0xE1A1 (fun s => (s.setV 1 5).setKey 5 true) (·.pc) = some 0x0202 := by decide
/-- V-K6. -/
theorem test_sknp_above_15 : after 0xE1A1 (fun s => (s.setV 1 0x15).setKey 5 true) (·.pc) = some 0x0204 := by decide
/-- V-K7. -/
theorem test_ldVxDt : after 0xF107 (fun s => (s.setV 1 1).setDelay 0x3C) (fun t => (t.v 1, t.delayTimer)) =
    some (0x3C, 0x3C) := by decide
/-- V-K8. -/
theorem test_ldDtVx : after 0xF115 (·.setV 1 0x3C) (·.delayTimer) = some 60 := by decide
/-- V-K9. -/
theorem test_ldStVx : after 0xF118 (·.setV 1 0xFF) (fun t => (t.soundTimer, t.soundActive)) = some (255, true) := by decide
/-- V-K11. -/
theorem test_ldVxK_waits : after 0xF10A (·.setV 1 0x77) (fun t => (t.pc, t.v 1)) = some (0x0200, 0x77) := by decide
/-- V-K12. -/
theorem test_ldVxK_least : after 0xF10A (fun s => ((s.setKey 3 true).setKey 9 true).setKey 12 true)
    (fun t => (t.pc, t.v 1)) = some (0x0202, 0x03) := by decide

/-! ### Unrecognised words and host operations -/

/-- Vectors of R57: 0x8128 is stepped over and reported. -/
theorem test_unrecognised : after 0x8128 (with2 1 3 2 4) (fun t => (t.pc, t.v 1, t.v 15)) = some (0x0202, 3, 0) ∧
    cycleEvent (booted 0x8128) = .unknownOpcode 0x0200 0x8128 := by decide
/-- R121: the code of the same event. -/
theorem test_event_code : eventCode (cycleEvent (booted 0x8128)) = 3 := by decide
/-- V-H1. -/
theorem test_ticks : afterOps [.tick, .tick, .tick] ((booted 0).setDelay 2) (fun t => (t.delayTimer, t.soundTimer)) =
    some (0, 0) := by decide
/-- V-H2. -/
theorem test_tick_halted : afterOps [.tick] (State.reset.setDelay 5) (·.delayTimer) = some 5 := by decide
/-- V-H3. -/
theorem test_key_out_of_range : afterOps [.keyDown 16, .keyDown (-1), .keyDown 255] State.reset id = some State.reset := by
  decide
/-- V-H4. -/
theorem test_keys : afterOps [.keyDown 3, .keyDown 3] State.reset (·.keys[3]) = some true ∧
    afterOps [.keyDown 3, .keyDown 3, .keyUp 3] State.reset (·.keys[3]) = some false := by decide
/-- V-H5. -/
theorem test_cycle_halted : transcript [.cycle] State.reset = [.event .idle] := by decide
/-- V-H6. -/
theorem test_resume_from_reset : transcript [.resume, .cycle] State.reset =
    [.nothing, .event (.unknownOpcode 0x0200 0x0000)] := by decide
/-- V-H7, V-H8, V-H9. -/
theorem test_breakpoint : transcript [.setBreakpoint 0x200, .cycle, .resume, .cycle, .clearBreakpoint 0x200, .resume, .cycle]
    (booted 0x6A55) = [.nothing, .event (.breakpointHit 0x0200), .nothing, .event (.breakpointHit 0x0200), .nothing, .nothing,
      .event .executed] := by decide
/-- V-H12. -/
theorem test_load_empty_rom : afterOps [.loadRom []] State.reset (fun t => (t.running, t.memory)) = some (true, []) := by decide
/-- V-H13. -/
theorem test_take_changed : transcript [.reset 0, .takeChangedFramebuffer, .takeChangedFramebuffer] State.reset =
    [.nothing, .taken (some Framebuffer.clear), .taken none] := by decide
/-- V-H14. -/
theorem test_breakpoint_compares_all_bits :
    cycleEvent ({ State.reset with breakpoints := [0x0200], pc := 0x1200 }.withFetchWord 16 0x6A55) = .executed := by decide
/-- V-H15. -/
theorem test_reset : afterOps [.reset 1] { withStack 2 (withBytes 0x300 [9] (State.reset.setV 3 7)) with breakpoints := [0x20A] }
    (fun t => (t.breakpoints, t.v 3, Memory.read t.memory 0x300, t.sp, Memory.read t.memory 0x050)) =
      some ([0x20A], 0, 0, 0, 0xF0) := by decide
/-- S11, with the ROM as the program. -/
theorem test_load_rom_runs : afterOps [.loadRom [0x12, 0x34], .cycle] State.reset (·.pc) = some 0x0234 := by decide

/-! ### Witnesses: each meets the hypotheses of the statement it is named after, clause by clause -/

theorem witness_EncodeOfDecode : decode 0x81F6 = .ok (.shr 1 15) := by decide
theorem witness_RecognisedWordsDecode : (recognised 0xFF65 = true ∧ decode 0xFF65 = .ok (.ldRegs 15)) ∧
    recognised 0x0000 = false := by decide

theorem witness_StepRunsDecodedInstruction : (booted 0x6A55).running = true ∧
    (booted 0x6A55).pc ∉ (booted 0x6A55).breakpoints ∧ decode (booted 0x6A55).fetchWord = .ok (.ldImm 10 0x55) := by decide

theorem witness_UnrecognisedWordOnlyAdvances : (booted 0x00E1).running = true ∧
    (booted 0x00E1).pc ∉ (booted 0x00E1).breakpoints ∧ recognised (booted 0x00E1).fetchWord = false := by decide

/-- A Running machine at a breakpoint. -/
def atBreakpoint : State := { booted 0x6A55 with breakpoints := [0x0200] }

theorem witness_BreakpointHaltsBeforeFetch : atBreakpoint.running = true ∧ atBreakpoint.pc ∈ atBreakpoint.breakpoints := by
  decide

theorem witness_HaltedMachineStandsStill : State.reset.running = false := by decide

/-- A Running machine about to execute a call or a return, with n entries on its stack. -/
def atCall (n : Fin 17) : State := withStack n (booted 0x2ABC)
def atReturn (n : Fin 17) : State := withStack n (booted 0x00EE)

theorem witness_EventPriority_halted : State.reset.running = false := by decide
theorem witness_EventPriority_breakpoint :
    atBreakpoint.running = true ∧ atBreakpoint.pc ∈ atBreakpoint.breakpoints := by decide
theorem witness_EventPriority_unrecognised : (booted 0xFFFF).running = true ∧
    (booted 0xFFFF).pc ∉ (booted 0xFFFF).breakpoints ∧ recognised (booted 0xFFFF).fetchWord = false := by decide
theorem witness_EventPriority_overflow : (atCall 16).running = true ∧ (atCall 16).pc ∉ (atCall 16).breakpoints ∧
    decode (atCall 16).fetchWord = .ok (.call 0xABC) ∧ (atCall 16).sp.val = 16 := by decide
theorem witness_EventPriority_underflow : (atReturn 0).running = true ∧ (atReturn 0).pc ∉ (atReturn 0).breakpoints ∧
    decode (atReturn 0).fetchWord = .ok .ret ∧ (atReturn 0).sp.val = 0 := by decide
theorem witness_EventPriority_executed : (atCall 15).running = true ∧ (atCall 15).pc ∉ (atCall 15).breakpoints ∧
    decode (atCall 15).fetchWord = .ok (.call 0xABC) ∧ ¬(atCall 15).sp.val = 16 := by decide

theorem witness_CallPushesOrOverflows : (atCall 15).sp.val < 16 ∧ (atCall 16).sp.val = 16 ∧ (14 : Fin 16).val ≠ 15 := by
  decide
theorem witness_ReturnPopsOrUnderflows : 0 < (atReturn 1).sp.val ∧ (atReturn 0).sp.val = 0 := by decide
theorem witness_CallThenReturn : (atCall 15).sp.val < 16 := by decide

theorem witness_SkipsOnImmediate : ((booted 0).setV 1 0xFF).v 1 = 0xFF ∧ ((booted 0).setV 1 0xFF).v 1 ≠ 0 := by decide
theorem witness_SkipsOnRegisters : (with2 1 7 2 7 (booted 0)).v 1 = (with2 1 7 2 7 (booted 0)).v 2 ∧
    (with2 1 7 2 8 (booted 0)).v 1 ≠ (with2 1 7 2 8 (booted 0)).v 2 := by decide

theorem witness_LoadsCopyTheirSource : (15 : RegNum) ≠ 1 := by decide
theorem witness_AddImmediateWraps : (15 : RegNum) ≠ 1 := by decide
theorem witness_LogicWorksBitwise : 7 < 8 ∧ (15 : RegNum) ≠ 1 := by decide

/-- A sum of exactly 256 carries, a sum of exactly 255 does not; the registers meet the clauses on x and y. -/
theorem witness_AddSetsCarry : ((with2 1 0x80 2 0x80 (booted 0)).v 1).toNat + ((with2 1 0x80 2 0x80 (booted 0)).v 2).toNat > 255 ∧
    ¬((with2 1 0x7F 2 0x80 (booted 0)).v 1).toNat + ((with2 1 0x7F 2 0x80 (booted 0)).v 2).toNat > 255 ∧
    (1 : RegNum) ≠ 15 ∧ (0 : RegNum) ≠ 1 := by decide
/-- Above, and equal. -/
theorem witness_SubtractionsCompareStrictly :
    ((with2 1 8 2 7 (booted 0)).v 1).toNat > ((with2 1 8 2 7 (booted 0)).v 2).toNat ∧
    ¬((with2 1 7 2 7 (booted 0)).v 1).toNat > ((with2 1 7 2 7 (booted 0)).v 2).toNat ∧ (1 : RegNum) ≠ 15 := by decide
/-- Either bit shifted out, at both ends. -/
theorem witness_ShiftsIgnoreVy : ((booted 0).setV 1 0x01 |>.v 1).toNat % 2 = 1 ∧ ¬((booted 0).setV 1 0xFE |>.v 1).toNat % 2 = 1 ∧
    ((booted 0).setV 1 0x80 |>.v 1).toNat ≥ 128 ∧ ¬((booted 0).setV 1 0x7F |>.v 1).toNat ≥ 128 ∧ (1 : RegNum) ≠ 15 := by decide
theorem witness_FlagAsOperand : (14 : RegNum) ≠ 15 ∧ (15 : RegNum) = 15 ∧ (0 : RegNum) ≠ 15 := by decide
theorem witness_RandomByteIsMasked : (15 : RegNum) ≠ 1 := by decide

/-- Fx33 with I = 0x0FFF: each of its three bytes, below and above the wrap, and a byte beside them. -/
theorem witness_DecimalDigitsStored : ((booted 0).setIndex 0x0FFF).index.toNat % 4096 = 0x0FFF % 4096 ∧
    0 % 4096 = (((booted 0).setIndex 0x0FFF).index.toNat + 1) % 4096 ∧
    0x1001 % 4096 = (((booted 0).setIndex 0x0FFF).index.toNat + 2) % 4096 ∧
    (∀ k < 3, 2 % 4096 ≠ (((booted 0).setIndex 0x0FFF).index.toNat + k) % 4096) := by decide
/-- F355 with I = 0x0FFE: its last register, above the wrap, and a byte beside them. -/
theorem witness_RegistersStored : (3 : RegNum).val ≤ (3 : RegNum).val ∧
    1 % 4096 = (((booted 0).setIndex 0x0FFE).index.toNat + (3 : RegNum).val) % 4096 ∧
    (∀ k : RegNum, k.val ≤ (3 : RegNum).val → 2 % 4096 ≠ (((booted 0).setIndex 0x0FFE).index.toNat + k.val) % 4096) := by decide
theorem witness_RegistersLoaded : (3 : RegNum).val ≤ (3 : RegNum).val ∧ (3 : RegNum).val < (4 : RegNum).val := by decide
theorem witness_StoresAreFetchedNext : 1 ≤ (1 : RegNum).val ∧
    ((booted 0).setIndex 0x1200).index.toNat % 4096 = ((booted 0).setIndex 0x1200).pc.toNat % 4096 := by decide

/-- The glyph for 0 at the top left corner, whose first row covers (0, 0) and not (4, 0). -/
def atGlyph : State := (booted 0xD015).setIndex 0x050

theorem atGlyph_covers : SpriteCovers atGlyph 0 1 5 0 0 := ⟨0, by decide, 0, by decide, by decide, by decide, by decide⟩
theorem atGlyph_spares : ¬SpriteCovers atGlyph 0 1 5 4 0 := by unfold SpriteCovers; decide

theorem witness_DrawXorsTheSpriteMask : SpriteCovers atGlyph 0 1 5 0 0 ∧ ¬SpriteCovers atGlyph 0 1 5 4 0 ∧
    (0 : RegNum) ≠ 15 := ⟨atGlyph_covers, atGlyph_spares, by decide⟩
/-- A lit pixel under the sprite. -/
theorem witness_DrawXorsTheSpriteMask_collision :
    ∃ px py, SpriteCovers (onePixel 0 0 atGlyph) 0 1 5 px py ∧ (onePixel 0 0 atGlyph).framebuffer.pixel px py = true :=
  ⟨0, 0, ⟨0, by decide, 0, by decide, by decide, by decide, by decide⟩, by decide⟩
/-- No lit pixel at all. -/
theorem witness_DrawXorsTheSpriteMask_clear :
    ∀ px py, SpriteCovers atGlyph 0 1 5 px py → atGlyph.framebuffer.pixel px py = false :=
  fun px py _ => show (State.reset.framebuffer).pixel px py = false by simp [State.reset, Framebuffer.pixel]
theorem witness_DrawingTwiceRestores : (0 : RegNum) ≠ 15 ∧ (1 : RegNum) ≠ 15 ∧
    (∀ px py, SpriteCovers atGlyph 0 1 5 px py → atGlyph.framebuffer.pixel px py = false) ∧
    (∃ px py, SpriteCovers atGlyph 0 1 5 px py) :=
  ⟨by decide, by decide, witness_DrawXorsTheSpriteMask_clear, 0, 0, atGlyph_covers⟩

theorem witness_KeySkipsReadTheLatch :
    (∃ k : Fin 16, (((booted 0).setV 1 15).v 1).toNat = k.val ∧ ((booted 0).setKey 15 true).keys[k.val] = true) ∧
    ¬∃ k : Fin 16, (((booted 0).setV 1 16).v 1).toNat = k.val ∧ ((booted 0).setKey 0 true).keys[k.val] = true := by decide
theorem witness_KeyWaitTakesLeastHeldKey : ((booted 0).setKey 15 true).keys[(15 : Fin 16).val] = true ∧
    (∀ j : Fin 16, j < 15 → ((booted 0).setKey 15 true).keys[j.val] = false) ∧
    (∀ k : Fin 16, (booted 0).keys[k.val] = false) ∧ (15 : RegNum) ≠ 1 := by decide
theorem witness_TimerAccess : (15 : RegNum) ≠ 1 := by decide

theorem witness_InstructionFrame : ∃ t, exec (.stRegs 15) (booted 0) = .next t := ⟨_, rfl⟩
theorem witness_FlagRegisterWriters : (∃ t, exec (.orReg 14 15) (booted 0) = .next t) ∧ writesFlag (.orReg 14 15) = false ∧
    destination (.orReg 14 15) ≠ some 15 ∧ (∃ t, exec (.addReg 14 15) (booted 0) = .next t) ∧
    writesFlag (.addReg 14 15) = true ∧ destination (.addReg 14 15) ≠ some 15 :=
  ⟨⟨_, rfl⟩, by decide, by decide, ⟨_, rfl⟩, by decide, by decide⟩
theorem witness_OnlyStackFaultsHalt :
    (∃ t, exec (.call 0xABC) (atCall 16) = .next t ∧ (t.running ≠ (atCall 16).running ∨ t.fault ≠ (atCall 16).fault)) ∧
    ∃ t, exec .ret (atReturn 0) = .next t ∧ (t.running ≠ (atReturn 0).running ∨ t.fault ≠ (atReturn 0).fault) :=
  ⟨⟨_, rfl, .inl (by decide)⟩, ⟨_, rfl, .inl (by decide)⟩⟩
theorem witness_StackFaultRepeatsOnResume :
    ((atCall 16).running = true ∧ (atCall 16).pc ∉ (atCall 16).breakpoints ∧
      decode (atCall 16).fetchWord = .ok (.call 0xABC) ∧ (atCall 16).sp.val = 16) ∧
    (atReturn 0).running = true ∧ (atReturn 0).pc ∉ (atReturn 0).breakpoints ∧
      decode (atReturn 0).fetchWord = .ok .ret ∧ (atReturn 0).sp.val = 0 := by decide
/-- A call, at both ends of its two clauses. -/
theorem witness_PcAfterStep : ((atCall 16).running = true ∧ (atCall 16).pc ∉ (atCall 16).breakpoints ∧
    decode (atCall 16).fetchWord = .ok (.call 0xABC) ∧ (atCall 15).sp.val < 16 ∧ (atCall 16).sp.val = 16) ∧
    ∃ t, step (atCall 16) = .next t := ⟨by decide, _, rfl⟩
/-- A return, at both ends of its two clauses. -/
theorem witness_PcAfterStep_ret : ((atReturn 1).running = true ∧ (atReturn 1).pc ∉ (atReturn 1).breakpoints ∧
    decode (atReturn 1).fetchWord = .ok .ret ∧ (atReturn 1).sp.val = (0 : Fin 16).val + 1 ∧ (atReturn 0).sp.val = 0) ∧
    ∃ t, step (atReturn 1) = .next t := ⟨by decide, _, rfl⟩

/-- A Running machine with `changed` and the fault latch set, about to set DT, or ST, from a register that holds 9. -/
def atTimer (w : Word) : State := { (booted w).setV 1 9 with changed := true, fault := .stackOverflow }

theorem witness_ProgramLeavesHostState_delay : ∃ t, step (atTimer 0xF115) = .next t ∧ t.running = true ∧
    (atTimer 0xF115).changed = true ∧ (atTimer 0xF115).fault ≠ .none ∧ t.delayTimer ≠ (atTimer 0xF115).delayTimer :=
  ⟨_, rfl, by decide, by decide, by decide, by decide⟩
theorem witness_ProgramLeavesHostState_sound : ∃ t, step (atTimer 0xF118) = .next t ∧
    t.soundTimer ≠ (atTimer 0xF118).soundTimer := ⟨_, rfl, by decide⟩
theorem witness_HostLeavesProgramState : HostOp.loadRom [0x12, 0x34] ≠ .cycle ∧
    (∀ seed, HostOp.loadRom [0x12, 0x34] ≠ .reset seed) ∧ (∀ p, HostOp.loadRom [0x12, 0x34] ≠ .load p) ∧
    ∃ t, operate (.loadRom [0x12, 0x34]) State.reset = .next t :=
  ⟨by simp, by simp, by simp, _, rfl⟩
theorem witness_RandomSourceSeenOnlyThroughDraws_other : (∃ t, step (booted 0x6A55) = .next t) ∧
    ∀ x nn, decode (booted 0x6A55).fetchWord ≠ .ok (.rnd x nn) := by
  refine ⟨⟨_, rfl⟩, fun x nn h => ?_⟩
  rw [witness_StepRunsDecodedInstruction.2.2] at h
  cases h
theorem witness_RandomSourceSeenOnlyThroughDraws_draw : (∃ t, step (booted 0xC1FF) = .next t) ∧
    (booted 0xC1FF).running = true ∧ (booted 0xC1FF).pc ∉ (booted 0xC1FF).breakpoints ∧
    decode (booted 0xC1FF).fetchWord = .ok (.rnd 1 0xFF) ∧ (15 : RegNum) ≠ 1 :=
  ⟨⟨_, rfl⟩, by decide, by decide, by decide, by decide⟩

theorem witness_StepKeepsWellFormed : (booted 0xF155).wf ∧ ∃ t, step (booted 0xF155) = .next t := ⟨by decide, _, rfl⟩
theorem witness_ScheduleKeepsWellFormed : State.reset.wf ∧
    ∃ t, runSchedule [.loadRom [0xF1, 0x55], .cycle, .tick] State.reset = .next t := ⟨by decide, _, rfl⟩

theorem witness_ResetLeavesTheBootState : 0x04F < 4096 ∧ 0x04F < 0x050 ∧ 0x0A0 < 4096 ∧ 0x09F < 0x0A0 := by decide
/-- A ROM of exactly the bound and one of a byte more (V-H10, V-H11), and each clause's addresses. -/
theorem witness_LoadRomCopiesOrRejects : (List.replicate 3584 (0xAA : Byte)).length ≤ 3584 ∧
    3583 < (List.replicate 3584 (0xAA : Byte)).length ∧ 0x1FF < 4096 ∧ 0x1FF < 0x200 ∧
    3584 < (List.replicate 3585 (0xAA : Byte)).length := by
  rw [List.length_replicate, List.length_replicate]; decide
/-- A two-byte ROM: its last byte, and the byte after it. -/
theorem witness_BootSequence : [(0x12 : Byte), 0x34].length ≤ 3584 ∧ 1 < [(0x12 : Byte), 0x34].length ∧ 0x202 < 4096 ∧
    0x200 + [(0x12 : Byte), 0x34].length ≤ 0x202 := by decide
theorem witness_BreakpointSetOperations : (booted 0).running = true ∧ (booted 0).pc = 0x0200 := by decide
theorem witness_TickCountsDown : (booted 0).running = true ∧ State.reset.running = false := by decide
/-- The key bits at both ends, an integer past the last and one below the first. -/
theorem witness_KeyReportsSetTheLatch : ((0 : Fin 16).val : Int) = 0 ∧ ((15 : Fin 16).val : Int) = 15 ∧
    (∀ j : Fin 16, (j.val : Int) ≠ 16) ∧ (∀ j : Fin 16, (j.val : Int) ≠ -1) := by decide
theorem witness_FramebufferReadOut : State.reset.changed = true ∧ (onePixel 0 0 State.reset).changed = false := by decide
theorem witness_ReadAccessorsOnlyRead : (State.reset.setSound 1).soundTimer.toNat ≠ 0 ∧ State.reset.soundTimer.toNat = 0 := by
  decide
theorem witness_StateLoadIsAllOrNothing : saved.wf ∧ ¬{ saved with sp := 17 }.wf ∧ 4095 < saved.memory.length :=
  ⟨saved_wf, test_snapshot_refused_sp, by rw [saved_wf.1]; decide⟩

end Sys2Proof.Tests
end

section
/-!
PROOFS. Memory (20_memory.md): `MemRead` as the byte at the reduced address, and the value of the fetched word.
-/

namespace Sys2Proof.Machine

/-- R35: the byte read is the one at the address reduced mod 4096. -/
theorem Memory.read_eq_lookup_mod (m : Memory) (addr : Nat) : Memory.read m addr = Memory.lookup m (addr % 4096) := rfl

/-- R37: the byte at pc is the high half of the fetched word, the byte after it the low half. -/
theorem State.fetchWord_toNat (s : State) :
    s.fetchWord.toNat = (Memory.read s.memory s.pc.toNat).toNat * 256 + (Memory.read s.memory (s.pc.toNat + 1)).toNat :=
  wordOfBytes_toNat _ _

/-- Settles O7: the two bytes of the word are read separately, so each address is reduced by its own read. -/
theorem fetchIsBigEndian : Obligations.FetchIsBigEndian := by
  intro s
  rw [State.fetchWord_toNat, Memory.read_eq_lookup_mod, Memory.read_eq_lookup_mod]

end Sys2Proof.Machine
end

section
/-!
PROOFS. The frame of a change of pc, and of a skip.
-/

namespace Sys2Proof.Machine

/-- A state agrees with itself on every element. -/
theorem Element.same_refl (e : Element) (s : State) : e.same s s := by
  cases e <;> simp [Element.same]

/-- Setting pc keeps every other element of state. -/
theorem Element.same_setPc {e : Element} (he : e ≠ .pc) (s : State) (a : Word) : e.same s (s.setPc a) := by
  have hs := e.same_refl s
  cases e with
  | pc => contradiction
  | _ => exact hs

theorem UnchangedExcept.refl (written : List Element) (s : State) : UnchangedExcept written s s :=
  fun e _ => e.same_refl s

theorem State.setPc_unchangedExcept (s : State) (a : Word) : UnchangedExcept [.pc] s (s.setPc a) :=
  fun _ he => Element.same_setPc (mt List.mem_singleton.mpr he) s a

/-- A skip, taken or not, writes nothing but pc. -/
theorem State.skipIf_unchangedExcept (s : State) (c : Bool) : UnchangedExcept [.pc] s (s.skipIf c) := by
  cases c with
  | true => exact s.setPc_unchangedExcept (s.pc + 2)
  | false => exact .refl [.pc] s

end Sys2Proof.Machine
end

section
/-!
PROOFS. Control transfer (40_flow.md): the jumps, and the skips that compare registers.
-/

namespace Sys2Proof.Machine

/-! ### Jumps -/

/-- 30_encoding.md R54: widening a 12-bit operand keeps its value. -/
@[simp] theorem zextImm_toNat (nnn : Imm12) : (zextImm nnn).toNat = nnn.toNat :=
  BitVec.toNat_setWidth_of_le (by decide)

/-- 30_encoding.md R54: widening a byte keeps its value. -/
@[simp] theorem zextByte_toNat (b : Byte) : (zextByte b).toNat = b.toNat :=
  BitVec.toNat_setWidth_of_le (by decide)

/-- R71: the largest sum is 0xFFF + 0xFF = 0x10FE, so 16 bits hold it and nothing wraps. -/
theorem zextImm_add_zextByte_toNat (nnn : Imm12) (b : Byte) :
    (zextImm nnn + zextByte b).toNat = nnn.toNat + b.toNat := by
  have := nnn.isLt
  have := b.isLt
  rw [BitVec.toNat_add, zextImm_toNat, zextByte_toNat]
  omega

theorem completes_jp (nnn : Imm12) (s : State) : Completes (.jp nnn) s (s.setPc (zextImm nnn)) := ⟨rfl, rfl⟩

theorem completes_jpV0 (nnn : Imm12) (s : State) :
    Completes (.jpV0 nnn) s (s.setPc (zextImm nnn + zextByte (s.v 0))) := ⟨rfl, rfl⟩

/-- Settles O13: the target is the operand, widened to 16 bits. -/
theorem jumpSetsPc : Obligations.JumpSetsPc := by
  intro nnn s
  refine ⟨_, completes_jp nnn s, ?_, s.setPc_unchangedExcept _⟩
  rw [State.setPc_pc, zextImm_toNat]

/-- Settles O14: the sum of the two widened operands never reaches 65536. -/
theorem jumpWithOffsetAddsVZero : Obligations.JumpWithOffsetAddsVZero := by
  intro nnn s
  have hsum := zextImm_add_zextByte_toNat nnn (s.v 0)
  have hlt := (zextImm nnn + zextByte (s.v 0)).isLt
  refine ⟨_, completes_jpV0 nnn s, ?_, ?_, s.setPc_unchangedExcept _⟩
  · rw [State.setPc_pc, ← hsum, Nat.mod_eq_of_lt hlt]
  · rw [State.setPc_pc, hsum]

/-! ### Skips -/

/-- An instruction that completes in `skipIf` of a test of its starting state skips exactly when the test's condition
holds. -/
theorem skips_of_completes_skipIf {i : Instr} {condition : State → Prop} {test : State → Bool}
    (hi : ∀ s, Completes i s (s.skipIf (test s))) (htest : ∀ s, test s = true ↔ condition s) : Skips i condition := by
  intro s
  refine ⟨_, hi s, fun hc => ?_, fun hc => ?_, s.skipIf_unchangedExcept _⟩
  · rw [State.skipIf_pc, if_pos ((htest s).mpr hc)]
  · rw [State.skipIf_pc, if_neg (mt (htest s).mp hc)]

theorem completes_seImm (x : RegNum) (nn : Byte) (s : State) :
    Completes (.seImm x nn) s (s.skipIf (s.v x == nn)) := ⟨rfl, rfl⟩

theorem completes_sneImm (x : RegNum) (nn : Byte) (s : State) :
    Completes (.sneImm x nn) s (s.skipIf (s.v x != nn)) := ⟨rfl, rfl⟩

theorem completes_seReg (x y : RegNum) (s : State) :
    Completes (.seReg x y) s (s.skipIf (s.v x == s.v y)) := ⟨rfl, rfl⟩

theorem completes_sneReg (x y : RegNum) (s : State) :
    Completes (.sneReg x y) s (s.skipIf (s.v x != s.v y)) := ⟨rfl, rfl⟩

/-- Settles O18: the tests are `==` and `!=` of Vx and the immediate. -/
theorem skipsOnImmediate : Obligations.SkipsOnImmediate := fun x nn =>
  ⟨skips_of_completes_skipIf (completes_seImm x nn) fun _ => beq_iff_eq,
    skips_of_completes_skipIf (completes_sneImm x nn) fun _ => bne_iff_ne⟩

/-- Settles O19: the tests are `==` and `!=` of the two registers, which may be the same one. -/
theorem skipsOnRegisters : Obligations.SkipsOnRegisters := fun x y =>
  ⟨skips_of_completes_skipIf (completes_seReg x y) fun _ => beq_iff_eq,
    skips_of_completes_skipIf (completes_sneReg x y) fun _ => bne_iff_ne⟩

end Sys2Proof.Machine
end

section
/-!
PROOFS. Registers and flags (41_alu.md): the loads, the add of an immediate and the bitwise logic, each of which completes
in one `setV`.
-/

namespace Sys2Proof.Machine

/-! ### What a register write does and keeps -/

/-- The register written reads as the byte written. -/
theorem State.v_setV_self (s : State) (x : RegNum) (b : Byte) : (s.setV x b).v x = b := by
  rw [State.v_setV, if_pos rfl]

/-- Setting a register keeps every other element of state. -/
theorem Element.same_setV {e : Element} (he : e ≠ .registers) (s : State) (x : RegNum) (b : Byte) :
    e.same s (s.setV x b) := by
  have hs := e.same_refl s
  cases e with
  | registers => contradiction
  | _ => exact hs

theorem State.setV_unchangedExcept (s : State) (x : RegNum) (b : Byte) : UnchangedExcept [.registers] s (s.setV x b) :=
  fun _ he => Element.same_setV (mt List.mem_singleton.mpr he) s x b

/-- The whole frame of a register write: the other registers, VF among them, and the other elements. -/
theorem State.setV_frame (s : State) (x : RegNum) (b : Byte) :
    (∀ r, r ≠ x → (s.setV x b).v r = s.v r) ∧ UnchangedExcept [.registers] s (s.setV x b) := by
  refine ⟨fun r hr => ?_, s.setV_unchangedExcept x b⟩
  rw [State.v_setV, if_neg hr]

/-! ### Loads and the add of an immediate -/

/-- An instruction that completes in one `setV` writes the register the number of its byte, and nothing else. -/
theorem writesRegister_of_completes_setV {i : Instr} {x : RegNum} {byte : State → Byte} {value : State → Nat}
    (hi : ∀ s, Completes i s (s.setV x (byte s))) (hvalue : ∀ s, (byte s).toNat = value s) :
    WritesRegister i x value := by
  intro s
  refine ⟨_, hi s, ?_, s.setV_frame x (byte s)⟩
  rw [State.v_setV_self, hvalue]

theorem completes_ldImm (x : RegNum) (nn : Byte) (s : State) : Completes (.ldImm x nn) s (s.setV x nn) := ⟨rfl, rfl⟩

theorem completes_ldReg (x y : RegNum) (s : State) : Completes (.ldReg x y) s (s.setV x (s.v y)) := ⟨rfl, rfl⟩

theorem completes_addImm (x : RegNum) (nn : Byte) (s : State) :
    Completes (.addImm x nn) s (s.setV x (s.v x + nn)) := ⟨rfl, rfl⟩

/-- Settles O20: the byte written is the immediate, or the old Vy. -/
theorem loadsCopyTheirSource : Obligations.LoadsCopyTheirSource :=
  ⟨fun x nn => writesRegister_of_completes_setV (completes_ldImm x nn) fun _ => rfl,
    fun x y => writesRegister_of_completes_setV (completes_ldReg x y) fun _ => rfl⟩

/-- Settles O21: the byte written is the 8-bit sum, whose number is the sum mod 256. -/
theorem addImmediateWraps : Obligations.AddImmediateWraps := fun x nn =>
  writesRegister_of_completes_setV (completes_addImm x nn) fun s => BitVec.toNat_add (s.v x) nn

/-! ### Bitwise logic -/

theorem completes_orReg (x y : RegNum) (s : State) : Completes (.orReg x y) s (s.setV x (s.v x ||| s.v y)) := ⟨rfl, rfl⟩

theorem completes_andReg (x y : RegNum) (s : State) : Completes (.andReg x y) s (s.setV x (s.v x &&& s.v y)) := ⟨rfl, rfl⟩

theorem completes_xorReg (x y : RegNum) (s : State) : Completes (.xorReg x y) s (s.setV x (s.v x ^^^ s.v y)) := ⟨rfl, rfl⟩

/-- Settles O22: a bit of the byte written is the operation of the two operands' bits. -/
theorem logicWorksBitwise : Obligations.LogicWorksBitwise := by
  intro x y s
  refine ⟨⟨_, completes_orReg x y s, fun k _ => ?_, s.setV_frame x _⟩,
    ⟨_, completes_andReg x y s, fun k _ => ?_, s.setV_frame x _⟩,
    ⟨_, completes_xorReg x y s, fun k _ => ?_, s.setV_frame x _⟩⟩
  · rw [State.v_setV_self, BitVec.getLsbD_or]
  · rw [State.v_setV_self, BitVec.getLsbD_and]
  · rw [State.v_setV_self, BitVec.getLsbD_xor]

end Sys2Proof.Machine
end

section
/-!
PROOFS. The frames of a change of memory, of the register file and of I, and how two frames compose.
-/

namespace Sys2Proof.Machine

theorem Element.same_trans {e : Element} {s t u : State} (hst : e.same s t) (htu : e.same t u) : e.same s u := by
  cases e with
  | memory | registers | stack | keys => exact fun k => (htu k).trans (hst k)
  | framebuffer => exact fun px py => (htu px py).trans (hst px py)
  | breakpoints => exact fun a => (htu a).trans (hst a)
  | _ => exact Eq.trans htu hst

/-- Two changes in a row write at most what either writes. -/
theorem UnchangedExcept.trans {ws wt : List Element} {s t u : State} (hst : UnchangedExcept ws s t)
    (htu : UnchangedExcept wt t u) : UnchangedExcept (ws ++ wt) s u :=
  fun e he => Element.same_trans (hst e fun h => he (List.mem_append_left wt h))
    (htu e fun h => he (List.mem_append_right ws h))

/-- 20_memory.md R36: a change of memory writes no other element. -/
theorem State.setMemory_unchangedExcept (s : State) (m : Memory) : UnchangedExcept [.memory] s (s.setMemory m) := by
  intro e he
  have hs := e.same_refl s
  cases e with
  | memory => exact absurd List.mem_cons_self he
  | _ => exact hs

/-- 10_state.md R14: a change of the register file writes no other element. -/
theorem State.setRegisters_unchangedExcept (s : State) (v : Vector Byte 16) :
    UnchangedExcept [.registers] s (s.setRegisters v) := by
  intro e he
  have hs := e.same_refl s
  cases e with
  | registers => exact absurd List.mem_cons_self he
  | _ => exact hs

/-- 10_state.md R16: writing I writes no other element. -/
theorem State.setIndex_unchangedExcept (s : State) (a : Word) : UnchangedExcept [.index] s (s.setIndex a) := by
  intro e he
  have hs := e.same_refl s
  cases e with
  | index => exact absurd List.mem_cons_self he
  | _ => exact hs

end Sys2Proof.Machine
end

section
/-!
PROOFS. I and memory (42_index_memory.md): the loads of I and the add to it, the decimal digits, and the block store and
load of registers.
-/

namespace Sys2Proof.Machine

/-! ### The index register -/

/-- An instruction that completes in one `setIndex` sets I to the number of its word, and does nothing else. -/
theorem setsIndex_of_completes_setIndex {i : Instr} {word : State → Word} {value : State → Nat}
    (hi : ∀ s, Completes i s (s.setIndex (word s))) (hvalue : ∀ s, (word s).toNat = value s) : SetsIndex i value :=
  fun s => ⟨_, hi s, hvalue s, s.setIndex_unchangedExcept (word s)⟩

theorem completes_ldI (nnn : Imm12) (s : State) : Completes (.ldI nnn) s (s.setIndex (zextImm nnn)) := ⟨rfl, rfl⟩

theorem completes_addI (x : RegNum) (s : State) :
    Completes (.addI x) s (s.setIndex (s.index + zextByte (s.v x))) := ⟨rfl, rfl⟩

/-- R87: the sum of I and a byte wraps at 65536. -/
theorem index_add_zextByte_toNat (a : Word) (b : Byte) : (a + zextByte b).toNat = (a.toNat + b.toNat) % 65536 := by
  rw [BitVec.toNat_add, zextByte_toNat]

/-- Settles O28: the word put in I is the widened operand, or the 16-bit sum of I and the widened Vx. -/
theorem indexLoadAndAdd : Obligations.IndexLoadAndAdd :=
  ⟨fun nnn => setsIndex_of_completes_setIndex (completes_ldI nnn) fun _ => zextImm_toNat nnn,
    fun x => setsIndex_of_completes_setIndex (completes_addI x) fun s => index_add_zextByte_toNat s.index (s.v x)⟩

/-- R90, R91: where the block store and the block load leave I. -/
theorem State.indexPast_toNat (s : State) (x : RegNum) :
    (s.indexPast x).toNat = (s.index.toNat + x.val + 1) % 65536 := by
  rw [State.indexPast, BitVec.toNat_add, BitVec.toNat_ofNat, Nat.add_mod_mod, Nat.add_assoc]

/-! ### Decimal digits -/

/-- A digit is below 10, so a byte holds its number. -/
theorem decimalDigits_map_toNat (b : Byte) :
    (decimalDigits b).map BitVec.toNat = [b.toNat / 100, b.toNat / 10 % 10, b.toNat % 10] := by
  have hb := b.isLt
  have hhundreds : b.toNat / 100 % 256 = b.toNat / 100 := by omega
  have htens : b.toNat / 10 % 10 % 256 = b.toNat / 10 % 10 := by omega
  have hones : b.toNat % 10 % 256 = b.toNat % 10 := by omega
  simp [decimalDigits, hhundreds, htens, hones]

/-- Reading back the k-th of the three digits stored from an address upward. -/
theorem Memory.read_writeBytes_decimalDigits (m : Memory) (a addr : Nat) (b : Byte) (k : Fin 3)
    (ha : a % 4096 = (addr + k.val) % 4096) :
    (Memory.read (Memory.writeBytes m addr (decimalDigits b)) a).toNat =
      [b.toNat / 100, b.toNat / 10 % 10, b.toNat % 10][k] := by
  rw [Memory.read_writeBytes (decimalDigits b) m addr a k.val k.isLt (by decide : 3 ≤ 4096) ha]
  exact (List.getElem_map BitVec.toNat).symm.trans (List.getElem_of_eq (decimalDigits_map_toNat b) k.isLt)

theorem completes_ldB (x : RegNum) (s : State) :
    Completes (.ldB x) s (s.setMemory (Memory.writeBytes s.memory s.index.toNat (decimalDigits (s.v x)))) := ⟨rfl, rfl⟩

/-- Settles O30: the three bytes written are the digits in order, and every other address reads as before. -/
theorem decimalDigitsStored : Obligations.DecimalDigitsStored := by
  intro x s
  refine ⟨_, completes_ldB x s, fun a => ?_, s.setMemory_unchangedExcept _⟩
  rw [State.setMemory_memory]
  have hdigit := Memory.read_writeBytes_decimalDigits s.memory a s.index.toNat (s.v x)
  exact ⟨hdigit 0, hdigit 1, hdigit 2, fun hother =>
    Memory.read_writeBytes_other _ s.memory _ a fun k hk => (hother k hk).symm⟩

/-! ### Registers stored and loaded -/

theorem completes_stRegs (x : RegNum) (s : State) :
    Completes (.stRegs x) s
      ((s.setMemory (Memory.writeBytes s.memory s.index.toNat (s.registersUpTo x))).setIndex (s.indexPast x)) := ⟨rfl, rfl⟩

/-- R90: Vk is read back at the k-th address; x is below 16, so no later register is stored over it. -/
theorem Memory.read_writeBytes_registersUpTo (m : Memory) (s : State) {x k : RegNum} (hk : k.val ≤ x.val) (a addr : Nat)
    (ha : a % 4096 = (addr + k.val) % 4096) :
    Memory.read (Memory.writeBytes m addr (s.registersUpTo x)) a = s.v k := by
  have hlen := s.registersUpTo_length x
  have hlt : k.val < (s.registersUpTo x).length := by omega
  rw [Memory.read_writeBytes _ m addr a k.val hlt (by omega) ha, State.registersUpTo_getElem]

/-- R90: an address that none of V0 to Vx goes to reads as before. -/
theorem Memory.read_writeBytes_registersUpTo_other (m : Memory) (s : State) (x : RegNum) (a addr : Nat)
    (ha : ∀ k : RegNum, k.val ≤ x.val → a % 4096 ≠ (addr + k.val) % 4096) :
    Memory.read (Memory.writeBytes m addr (s.registersUpTo x)) a = Memory.read m a := by
  refine Memory.read_writeBytes_other _ m addr a fun k hk => ?_
  rw [State.registersUpTo_length] at hk
  exact (ha ⟨k, by omega⟩ (Nat.le_of_lt_succ hk)).symm

/-- Settles O31: the bytes written are the registers in order, and I is written after them. -/
theorem registersStored : Obligations.RegistersStored := by
  intro x s
  refine ⟨_, completes_stRegs x s, fun k a hk ha => ?_, fun a ha => ?_, s.indexPast_toNat x,
    (s.setMemory_unchangedExcept _).trans (State.setIndex_unchangedExcept _ _)⟩
  · exact Memory.read_writeBytes_registersUpTo s.memory s hk a s.index.toNat ha
  · exact Memory.read_writeBytes_registersUpTo_other s.memory s x a s.index.toNat ha

theorem completes_ldRegs (x : RegNum) (s : State) :
    Completes (.ldRegs x) s
      ((s.setRegisters (fillRegisters s.registers 0 (Memory.readBytes s.memory s.index.toNat (x.val + 1)))).setIndex
        (s.indexPast x)) := ⟨rfl, rfl⟩

/-- R91: the first `count` registers take the bytes read, the others keep theirs. -/
theorem fillRegisters_readBytes_getElem (v : Vector Byte 16) (m : Memory) (addr count : Nat) (k : RegNum) :
    (fillRegisters v 0 (Memory.readBytes m addr count))[k.val] =
      if k.val < count then Memory.read m (addr + k.val) else v[k.val] := by
  rw [fillRegisters_getElem]
  by_cases hk : k.val < count
  · rw [if_pos hk, dif_pos ⟨Nat.zero_le _, by simpa using hk⟩, Memory.readBytes_getElem, Nat.sub_zero]
  · rw [if_neg hk, dif_neg (by simpa using hk)]

/-- Settles O32: V0 to Vx are the bytes read in order, and I is written after them. -/
theorem registersLoaded : Obligations.RegistersLoaded := by
  intro x s
  have hfill := fillRegisters_readBytes_getElem s.registers s.memory s.index.toNat (x.val + 1)
  refine ⟨_, completes_ldRegs x s, fun k hk => ?_, fun k hk => ?_, s.indexPast_toNat x,
    (s.setRegisters_unchangedExcept _).trans (State.setIndex_unchangedExcept _ _)⟩
  · exact (hfill k).trans (if_pos (Nat.lt_succ_of_le hk))
  · exact (hfill k).trans (if_neg (by omega))

end Sys2Proof.Machine
end

section
/-!
PROOFS. The display (43_display.md): the frame of a framebuffer being shown, and the clear.
-/

namespace Sys2Proof.Machine

/-- 10_state.md R23, R24: showing a framebuffer writes it and `changed`, and no other element. -/
theorem State.show_unchangedExcept (s : State) (fb : Framebuffer) :
    UnchangedExcept [.framebuffer, .changed] s (s.show fb) := by
  intro e he
  have hs := e.same_refl s
  cases e with
  | framebuffer => exact absurd List.mem_cons_self he
  | changed => exact absurd (List.mem_cons_of_mem _ List.mem_cons_self) he
  | _ => exact hs

theorem completes_cls (s : State) : Completes .cls s (s.show Framebuffer.clear) := ⟨rfl, rfl⟩

/-- Settles O34: the state completed in shows the clear framebuffer, whatever was shown before. -/
theorem clearTurnsEveryPixelOff : Obligations.ClearTurnsEveryPixelOff := fun s =>
  ⟨s.show Framebuffer.clear, completes_cls s, Framebuffer.pixel_clear, s.show_changed Framebuffer.clear,
    s.show_unchangedExcept Framebuffer.clear⟩

end Sys2Proof.Machine
end

section
/-!
PROOFS. The timers (44_timer_key.md): the frames of a write of DT and of ST, and the three instructions that read or write
a timer.
-/

namespace Sys2Proof.Machine

/-- 10_state.md R21: writing DT writes no other element. -/
theorem State.setDelay_unchangedExcept (s : State) (b : Byte) : UnchangedExcept [.delayTimer] s (s.setDelay b) := by
  intro e he
  have hs := e.same_refl s
  cases e with
  | delayTimer => exact absurd List.mem_cons_self he
  | _ => exact hs

/-- 10_state.md R22: writing ST writes no other element. -/
theorem State.setSound_unchangedExcept (s : State) (b : Byte) : UnchangedExcept [.soundTimer] s (s.setSound b) := by
  intro e he
  have hs := e.same_refl s
  cases e with
  | soundTimer => exact absurd List.mem_cons_self he
  | _ => exact hs

/-- 45_host_operations.md R117: the sound output follows ST at once. -/
theorem State.soundActive_setSound (s : State) (b : Byte) : (s.setSound b).soundActive = (b != 0) := rfl

theorem completes_ldVxDt (x : RegNum) (s : State) : Completes (.ldVxDt x) s (s.setV x s.delayTimer) := ⟨rfl, rfl⟩

theorem completes_ldDtVx (x : RegNum) (s : State) : Completes (.ldDtVx x) s (s.setDelay (s.v x)) := ⟨rfl, rfl⟩

theorem completes_ldStVx (x : RegNum) (s : State) : Completes (.ldStVx x) s (s.setSound (s.v x)) := ⟨rfl, rfl⟩

/-- Settles O39: each of the three completes in one write, of Vx, of DT or of ST. -/
theorem timerAccess : Obligations.TimerAccess := fun x =>
  ⟨writesRegister_of_completes_setV (completes_ldVxDt x) fun _ => rfl,
    fun s => ⟨s.setDelay (s.v x), completes_ldDtVx x s, s.setDelay_delayTimer (s.v x),
      s.setDelay_unchangedExcept (s.v x)⟩,
    fun s => ⟨s.setSound (s.v x), completes_ldStVx x s, s.setSound_soundTimer (s.v x),
      s.soundActive_setSound (s.v x), s.setSound_unchangedExcept (s.v x)⟩⟩

end Sys2Proof.Machine
end

section
/-!
PROOFS. The host operations on the keys and the breakpoint set (45_host_operations.md): their frames, and the halt at a
breakpoint.
-/

namespace Sys2Proof.Machine

/-! ### Key reports -/

/-- 10_state.md R25: writing a key writes no other element. -/
theorem State.setKey_unchangedExcept (s : State) (k : Fin 16) (down : Bool) :
    UnchangedExcept [.keys] s (s.setKey k down) := by
  intro e he
  have hs := e.same_refl s
  cases e with
  | keys => exact absurd List.mem_cons_self he
  | _ => exact hs

/-- R107, R108: a report writes the keys only, whether or not its integer names a key. -/
theorem State.reportKey_unchangedExcept (s : State) (k : Int) (down : Bool) :
    UnchangedExcept [.keys] s (s.reportKey k down) := by
  obtain ⟨j, -, hset⟩ | ⟨-, hignored⟩ := s.reportKey_cases k down
  · rw [hset]
    exact s.setKey_unchangedExcept j down
  · rw [hignored]
    exact UnchangedExcept.refl [.keys] s

/-- R107, R108: the key bits after a report. -/
theorem State.reportKey_getElem (s : State) (k : Int) (down : Bool) (j : Fin 16) :
    (s.reportKey k down).keys[j.val] = if (j.val : Int) = k then down else s.keys[j.val] := by
  obtain ⟨i, hi, hset⟩ | ⟨hnone, hignored⟩ := s.reportKey_cases k down
  · subst hi
    simp only [hset, State.setKey_keys, Vector.getElem_set, Nat.cast_inj, @eq_comm Nat i.val]
  · rw [if_neg (hnone j), hignored]

/-- Settles O55: the two operations are the report of the key as down and as up, whose key bits and frame are known. -/
theorem keyReportsSetTheLatch : Obligations.KeyReportsSetTheLatch := by
  intro k s
  have hbit := s.reportKey_getElem k
  refine ⟨s.reportKey k true, s.reportKey k false, rfl, rfl, fun j hj => ?_, fun j hj => ?_,
    s.reportKey_unchangedExcept k true, s.reportKey_unchangedExcept k false⟩
  · exact ⟨(hbit true j).trans (if_pos hj), (hbit false j).trans (if_pos hj)⟩
  · exact ⟨(hbit true j).trans (if_neg hj), (hbit false j).trans (if_neg hj)⟩

/-! ### Breakpoints -/

/-- 10_state.md R26: writing the breakpoint set writes no other element. -/
theorem State.setBreakpoints_unchangedExcept (s : State) (bp : Breakpoints) :
    UnchangedExcept [.breakpoints] s (s.setBreakpoints bp) := by
  intro e he
  have hs := e.same_refl s
  cases e with
  | breakpoints => exact absurd List.mem_cons_self he
  | _ => exact hs

/-- 10_state.md R27: writing `running` writes no other element. -/
theorem State.setRunning_unchangedExcept (s : State) (r : Bool) : UnchangedExcept [.running] s (s.setRunning r) := by
  intro e he
  have hs := e.same_refl s
  cases e with
  | running => exact absurd List.mem_cons_self he
  | _ => exact hs

/-- R104 step 2: a Running machine at a breakpoint halts, and its cycle reports the hit. -/
theorem halts_at_breakpoint (s : State) (hrunning : s.running = true) (hpc : s.pc ∈ s.breakpoints) :
    step s = .next (s.setRunning false) ∧ cycleEvent s = .breakpointHit s.pc := by
  constructor
  · simpa [hrunning, hpc] using step_cases s
  · simpa [hrunning, hpc] using cycleEvent_cases s

/-- Settles O56: the members of the new set are `Breakpoints.mem_add` and `Breakpoints.mem_remove`, and the next cycle
finds pc among them. -/
theorem breakpointSetOperations : Obligations.BreakpointSetOperations := by
  intro a s
  refine ⟨s.setBreakpoints (Breakpoints.add s.breakpoints a), s.setBreakpoints (Breakpoints.remove s.breakpoints a),
    rfl, rfl, Breakpoints.mem_add s.breakpoints a, fun b => ?_, s.setBreakpoints_unchangedExcept _,
    s.setBreakpoints_unchangedExcept _, ?_⟩
  · exact (Breakpoints.mem_remove s.breakpoints a b).trans and_comm
  · rintro hrunning rfl
    have hpc := (Breakpoints.mem_add s.breakpoints s.pc s.pc).mpr (.inl rfl)
    obtain ⟨hstep, hevent⟩ :=
      halts_at_breakpoint (s.setBreakpoints (Breakpoints.add s.breakpoints s.pc)) hrunning hpc
    exact ⟨hevent, _, hstep, rfl, State.setRunning_unchangedExcept _ false⟩

end Sys2Proof.Machine
end

section
/-!
PROOFS. The encoding (30_encoding.md): the fields of an assembled word, a word from its fields, and which words are
recognised.
-/

namespace Sys2Proof

/-! ### The fields of an assembled word -/

theorem opField_encodeNNN {op : Nat} (hop : op < 16) (nnn : Imm12) : opField (encodeNNN op nnn) = op := by
  have := nnn.isLt
  rw [opField_eq_div, encodeNNN, BitVec.toNat_ofNat]
  omega

theorem nnnField_encodeNNN (op : Nat) (nnn : Imm12) : nnnField (encodeNNN op nnn) = nnn := by
  have := nnn.isLt
  apply BitVec.eq_of_toNat_eq
  rw [nnnField_toNat, encodeNNN, BitVec.toNat_ofNat]
  omega

theorem opField_encodeXNN {op : Nat} (hop : op < 16) (x : RegNum) (nn : Byte) : opField (encodeXNN op x nn) = op := by
  have := nn.isLt
  rw [opField_eq_div, encodeXNN, BitVec.toNat_ofNat]
  omega

theorem xField_encodeXNN (op : Nat) (x : RegNum) (nn : Byte) : xField (encodeXNN op x nn) = x := by
  have := nn.isLt
  apply Fin.ext
  rw [xField_val, encodeXNN, BitVec.toNat_ofNat]
  omega

theorem nnField_encodeXNN (op : Nat) (x : RegNum) (nn : Byte) : nnField (encodeXNN op x nn) = nn := by
  have := nn.isLt
  apply BitVec.eq_of_toNat_eq
  rw [nnField_toNat, encodeXNN, BitVec.toNat_ofNat]
  omega

theorem opField_encodeXYN {op : Nat} (hop : op < 16) (x y : RegNum) (n : Imm4) :
    opField (encodeXYN op x y n) = op := by
  have := n.isLt
  rw [opField_eq_div, encodeXYN, BitVec.toNat_ofNat]
  omega

theorem xField_encodeXYN (op : Nat) (x y : RegNum) (n : Imm4) : xField (encodeXYN op x y n) = x := by
  have := n.isLt
  apply Fin.ext
  rw [xField_val, encodeXYN, BitVec.toNat_ofNat]
  omega

theorem yField_encodeXYN (op : Nat) (x y : RegNum) (n : Imm4) : yField (encodeXYN op x y n) = y := by
  have := n.isLt
  apply Fin.ext
  rw [yField_val, encodeXYN, BitVec.toNat_ofNat]
  omega

theorem nField_encodeXYN (op : Nat) (x y : RegNum) (n : Imm4) : nField (encodeXYN op x y n) = n := by
  have := n.isLt
  apply BitVec.eq_of_toNat_eq
  rw [nField_toNat, encodeXYN, BitVec.toNat_ofNat]
  omega

/-! ### Decoding an assembled word -/

theorem decode_encodeXNN_E (x : RegNum) (nn : Byte) : decode (encodeXNN 0xE x nn) = decodeE x nn := by
  rw [decode, opField_encodeXNN (by decide), xField_encodeXNN, nnField_encodeXNN]
  rfl

theorem decode_encodeXNN_F (x : RegNum) (nn : Byte) : decode (encodeXNN 0xF x nn) = decodeF x nn := by
  rw [decode, opField_encodeXNN (by decide), xField_encodeXNN, nnField_encodeXNN]
  rfl

theorem decode_encodeXYN_8 (x y : RegNum) (n : Imm4) : decode (encodeXYN 0x8 x y n) = decodeEight x y n.toNat := by
  rw [decode, opField_encodeXYN (by decide), xField_encodeXYN, yField_encodeXYN, nField_encodeXYN]
  rfl

/-- Settles O2: the decoder reads back each field that the format of the instruction lays down. -/
theorem decodeOfEncode : Obligations.DecodeOfEncode := by
  intro i
  cases i with
  | cls | ret => decide
  | jp nnn | call nnn | ldI nnn | jpV0 nnn =>
    rw [encode, decode, opField_encodeNNN (by decide), nnnField_encodeNNN]
    rfl
  | seImm x nn | sneImm x nn | ldImm x nn | addImm x nn | rnd x nn =>
    rw [encode, decode, opField_encodeXNN (by decide), xField_encodeXNN, nnField_encodeXNN]
    rfl
  | seReg x y | sneReg x y | drw x y _ =>
    rw [encode, decode, opField_encodeXYN (by decide), xField_encodeXYN, yField_encodeXYN, nField_encodeXYN]
    rfl
  | ldReg x y | orReg x y | andReg x y | xorReg x y | addReg x y | sub x y | shr x y | subn x y | shl x y =>
    rw [encode, decode_encodeXYN_8]
    rfl
  | skp x | sknp x =>
    rw [encode, decode_encodeXNN_E]
    rfl
  | ldVxDt x | ldVxK x | ldDtVx x | ldStVx x | addI x | ldF x | ldB x | stRegs x | ldRegs x =>
    rw [encode, decode_encodeXNN_F]
    rfl

/-! ### A word from its fields -/

theorem encodeNNN_fields (w : Word) : encodeNNN (opField w) (nnnField w) = w := by
  have := w.isLt
  apply BitVec.eq_of_toNat_eq
  rw [encodeNNN, BitVec.toNat_ofNat, opField_eq_div, nnnField_toNat]
  omega

theorem encodeXNN_fields (w : Word) : encodeXNN (opField w) (xField w) (nnField w) = w := by
  have := w.isLt
  apply BitVec.eq_of_toNat_eq
  rw [encodeXNN, BitVec.toNat_ofNat, opField_eq_div, xField_val, nnField_toNat]
  omega

theorem encodeXYN_fields (w : Word) : encodeXYN (opField w) (xField w) (yField w) (nField w) = w := by
  have := w.isLt
  apply BitVec.eq_of_toNat_eq
  rw [encodeXYN, BitVec.toNat_ofNat, opField_eq_div, xField_val, yField_val, nField_toNat]
  omega

/-! ### Encoding a decoded instruction of a group -/

theorem encode_of_decodeEight_ok {x y : RegNum} {n : Imm4} {i : Instr} (h : decodeEight x y n.toNat = .ok i) :
    encode i = encodeXYN 0x8 x y n := by
  unfold decodeEight at h
  split at h <;> cases h <;> rename_i hn <;>
    exact congrArg (encodeXYN 0x8 x y) (BitVec.eq_of_toNat_eq hn.symm)

theorem encode_of_decodeE_ok {x : RegNum} {nn : Byte} {i : Instr} (h : decodeE x nn = .ok i) :
    encode i = encodeXNN 0xE x nn := by
  unfold decodeE at h
  split_ifs at h <;> cases h <;> subst nn <;> rfl

theorem encode_of_decodeF_ok {x : RegNum} {nn : Byte} {i : Instr} (h : decodeF x nn = .ok i) :
    encode i = encodeXNN 0xF x nn := by
  unfold decodeF at h
  split_ifs at h <;> cases h <;> subst nn <;> rfl

/-- Settles O3: each opcode decodes in one format, whose fields assemble the word again. -/
theorem encodeOfDecode : Obligations.EncodeOfDecode := by
  intro w i h
  have hnnn := encodeNNN_fields w
  have hxnn := encodeXNN_fields w
  have hxyn := encodeXYN_fields w
  have hlt := opField_lt w
  unfold decode at h
  split at h
  case h_1 => split_ifs at h with hw hw <;> cases h <;> exact hw.symm
  case h_2 hop | h_3 hop | h_11 hop | h_12 hop =>
    rw [hop] at hnnn
    cases h
    exact hnnn
  case h_4 hop | h_5 hop | h_7 hop | h_8 hop | h_13 hop =>
    rw [hop] at hxnn
    cases h
    exact hxnn
  case h_6 hop | h_10 hop =>
    split_ifs at h with hn
    rw [hop, hn] at hxyn
    cases h
    exact hxyn
  case h_14 hop =>
    rw [hop] at hxyn
    cases h
    exact hxyn
  case h_9 hop => rw [encode_of_decodeEight_ok h, ← hop, hxyn]
  case h_15 hop => rw [encode_of_decodeE_ok h, ← hop, hxnn]
  case h_16 =>
    have hop : opField w = 15 := by grind
    rw [encode_of_decodeF_ok h, ← hop, hxnn]

/-! ### Which words are recognised -/

theorem decodeEight_eq_error_iff (x y : RegNum) (n : Imm4) :
    (∃ e, decodeEight x y n.toNat = .error e) ↔ n.toNat ∈ [0x8, 0x9, 0xA, 0xB, 0xC, 0xD, 0xF] := by
  have := n.isLt
  interval_cases n.toNat <;> simp [decodeEight]

theorem decodeE_eq_error_iff (x : RegNum) (nn : Byte) :
    (∃ e, decodeE x nn = .error e) ↔ nn.toNat ∉ [0x9E, 0xA1] := by
  unfold decodeE
  split_ifs <;> simp_all [BitVec.toNat_eq]

theorem decodeF_eq_error_iff (x : RegNum) (nn : Byte) :
    (∃ e, decodeF x nn = .error e) ↔ nn.toNat ∉ [0x07, 0x0A, 0x15, 0x18, 0x1E, 0x29, 0x33, 0x55, 0x65] := by
  unfold decodeF
  split_ifs <;> simp_all [BitVec.toNat_eq]

/-- Settles O5: the spaces are told apart by the opcode, and each opcode's words are split by its secondary field. -/
theorem unrecognisedSpaces : Obligations.UnrecognisedSpaces := by
  intro w
  have hlt := opField_lt w
  rw [← opField_eq_div, ← nField_toNat, ← nnField_toNat]
  unfold decode
  split
  case h_1 hop =>
    simp only [BitVec.toNat_eq]
    split_ifs <;> simp_all
  case h_6 hop | h_10 hop => split_ifs <;> simp_all [BitVec.toNat_eq]
  case h_9 hop => simp [hop, decodeEight_eq_error_iff]
  case h_15 hop => simp [hop, decodeE_eq_error_iff]
  case h_16 =>
    have hop : opField w = 15 := by grind
    simp [hop, decodeF_eq_error_iff]
  case h_2 hop | h_3 hop | h_4 hop | h_5 hop | h_7 hop | h_8 hop | h_11 hop | h_12 hop | h_13 hop | h_14 hop =>
    simp [hop]

/-- Every row's pattern is tied to the words the encoder gives the row's instructions. -/
theorem tableRow (i : Instr) : Laws.TableRow.Statement i := by
  cases i with
  | cls => exact Laws.TableRow.cls
  | ret => exact Laws.TableRow.ret
  | jp nnn => exact Laws.TableRow.jp nnn
  | call nnn => exact Laws.TableRow.call nnn
  | seImm x nn => exact Laws.TableRow.seImm x nn
  | sneImm x nn => exact Laws.TableRow.sneImm x nn
  | seReg x y => exact Laws.TableRow.seReg x y
  | ldImm x nn => exact Laws.TableRow.ldImm x nn
  | addImm x nn => exact Laws.TableRow.addImm x nn
  | ldReg x y => exact Laws.TableRow.ldReg x y
  | orReg x y => exact Laws.TableRow.orReg x y
  | andReg x y => exact Laws.TableRow.andReg x y
  | xorReg x y => exact Laws.TableRow.xorReg x y
  | addReg x y => exact Laws.TableRow.addReg x y
  | sub x y => exact Laws.TableRow.sub x y
  | shr x y => exact Laws.TableRow.shr x y
  | subn x y => exact Laws.TableRow.subn x y
  | shl x y => exact Laws.TableRow.shl x y
  | sneReg x y => exact Laws.TableRow.sneReg x y
  | ldI nnn => exact Laws.TableRow.ldI nnn
  | jpV0 nnn => exact Laws.TableRow.jpV0 nnn
  | rnd x nn => exact Laws.TableRow.rnd x nn
  | drw x y n => exact Laws.TableRow.drw x y n
  | skp x => exact Laws.TableRow.skp x
  | sknp x => exact Laws.TableRow.sknp x
  | ldVxDt x => exact Laws.TableRow.ldVxDt x
  | ldVxK x => exact Laws.TableRow.ldVxK x
  | ldDtVx x => exact Laws.TableRow.ldDtVx x
  | ldStVx x => exact Laws.TableRow.ldStVx x
  | addI x => exact Laws.TableRow.addI x
  | ldF x => exact Laws.TableRow.ldF x
  | ldB x => exact Laws.TableRow.ldB x
  | stRegs x => exact Laws.TableRow.stRegs x
  | ldRegs x => exact Laws.TableRow.ldRegs x

theorem row_accepts_of_decode {w : Word} {i : Instr} (h : decode w = .ok i) : i.row.accepts w = true := by
  obtain ⟨hword, -⟩ := tableRow i
  rwa [encodeOfDecode w i h, ← beq_iff_eq] at hword

/-- A word that two rows accept is masked to one value by both masks, so rows that disagree there share no word. -/
theorem OpcodeRow.disjoint_of_masked_ne {r q : OpcodeRow} (hrq : r.value &&& q.mask ≠ q.value &&& r.mask) (w : Word) :
    ¬(r.accepts w = true ∧ q.accepts w = true) := by
  rintro ⟨hr, hq⟩
  apply hrq
  rw [← beq_iff_eq.mp hr, ← beq_iff_eq.mp hq, BitVec.and_assoc, BitVec.and_assoc, BitVec.and_comm r.mask]

theorem opcodeMap_pairwise_disjoint (w : Word) :
    opcodeMap.Pairwise (fun r q => ¬(r.accepts w = true ∧ q.accepts w = true)) := by
  have hmap : opcodeMap.Pairwise (fun r q => r.value &&& q.mask ≠ q.value &&& r.mask) := by decide
  exact hmap.imp fun hrq => OpcodeRow.disjoint_of_masked_ne hrq w

/-- A row fixes each field that its mask covers. -/
theorem OpcodeRow.extract_of_accepts {r : OpcodeRow} {w : Word} (h : r.accepts w = true) {start len : Nat}
    (hmask : r.mask.extractLsb' start len = BitVec.allOnes len) :
    w.extractLsb' start len = r.value.extractLsb' start len := by
  rw [← beq_iff_eq.mp h, BitVec.extractLsb'_and, hmask, BitVec.and_allOnes]

/-- What each row fixes: the opcode, and in the opcodes that have unrecognised words the secondary field as well. -/
theorem opcodeMap_fixes_fields : ∀ r ∈ opcodeMap,
    r.mask.extractLsb' 12 4 = BitVec.allOnes 4 ∧
    (opField r.value = 0 → r.mask = BitVec.allOnes 16 ∧ r.value.toNat ∈ [0x00E0, 0x00EE]) ∧
    (opField r.value ∈ [5, 9] → r.mask.extractLsb' 0 4 = BitVec.allOnes 4 ∧ (nField r.value).toNat = 0) ∧
    (opField r.value = 8 → r.mask.extractLsb' 0 4 = BitVec.allOnes 4 ∧
      (nField r.value).toNat ∉ [0x8, 0x9, 0xA, 0xB, 0xC, 0xD, 0xF]) ∧
    (opField r.value = 0xE → r.mask.extractLsb' 0 8 = BitVec.allOnes 8 ∧ (nnField r.value).toNat ∈ [0x9E, 0xA1]) ∧
    (opField r.value = 0xF → r.mask.extractLsb' 0 8 = BitVec.allOnes 8 ∧
      (nnField r.value).toNat ∈ [0x07, 0x0A, 0x15, 0x18, 0x1E, 0x29, 0x33, 0x55, 0x65]) := by
  decide

/-- A word of a row lies in none of the unrecognised spaces, since the row fixes the field that would put it there. -/
theorem decodes_of_accepts {r : OpcodeRow} (hr : r ∈ opcodeMap) {w : Word} (h : r.accepts w = true) :
    ∃ i, decode w = .ok i := by
  obtain ⟨hmask, h0, h59, h8, hE, hF⟩ := opcodeMap_fixes_fields r hr
  have hop : opField w = opField r.value := congrArg BitVec.toNat (OpcodeRow.extract_of_accepts h hmask)
  cases hd : decode w with
  | ok i => exact ⟨i, rfl⟩
  | error e =>
    exfalso
    have hspace := (unrecognisedSpaces w).mp ⟨e, hd⟩
    rw [← opField_eq_div, ← nField_toNat, ← nnField_toNat, hop] at hspace
    rcases hspace with ⟨hw, hE0, hEE⟩ | ⟨hw, hn⟩ | ⟨hw, hn⟩ | ⟨hw, hn⟩ | ⟨hw, hnn⟩ | ⟨hw, hnn⟩
    · obtain ⟨hm, hv⟩ := h0 hw
      rw [← beq_iff_eq.mp h, hm, BitVec.and_allOnes] at hv
      simp [hE0, hEE] at hv
    · obtain ⟨hm, hv⟩ := h59 (by simp [hw])
      exact hn (by rw [nField, OpcodeRow.extract_of_accepts h hm]; exact hv)
    · obtain ⟨hm, hv⟩ := h8 hw
      exact hv (by rwa [nField, OpcodeRow.extract_of_accepts h hm] at hn)
    · obtain ⟨hm, hv⟩ := h59 (by simp [hw])
      exact hn (by rw [nField, OpcodeRow.extract_of_accepts h hm]; exact hv)
    · obtain ⟨hm, hv⟩ := hE hw
      exact hnn (by rw [nnField, OpcodeRow.extract_of_accepts h hm]; exact hv)
    · obtain ⟨hm, hv⟩ := hF hw
      exact hnn (by rw [nnField, OpcodeRow.extract_of_accepts h hm]; exact hv)

theorem recognised_iff_decodes (w : Word) : (∃ i, decode w = .ok i) ↔ recognised w = true := by
  rw [recognised, List.any_eq_true]
  constructor
  · rintro ⟨i, hi⟩
    exact ⟨i.row, (tableRow i).2, row_accepts_of_decode hi⟩
  · rintro ⟨r, hr, h⟩
    exact decodes_of_accepts hr h

/-- Settles O4: a word decodes to an instruction of a row that accepts it, and an accepting row keeps it out of the
unrecognised spaces. -/
theorem recognisedWordsDecode : Obligations.RecognisedWordsDecode := fun w =>
  ⟨recognised_iff_decodes w, opcodeMap_pairwise_disjoint w, fun _ => row_accepts_of_decode⟩

/-- A word is unrecognised exactly when the decoder rejects it. -/
theorem recognised_eq_false_iff (w : Word) : recognised w = false ↔ ∃ e, decode w = .error e := by
  rw [← Bool.not_eq_true, ← recognised_iff_decodes]
  cases decode w <;> simp

/-- Settles O1: each word's top nibble and secondary field pick its row, so decoding it is evaluation. -/
theorem wordsFromTheSpecDecode : Obligations.WordsFromTheSpecDecode := by
  unfold Obligations.WordsFromTheSpecDecode
  decide

end Sys2Proof
end

section
/-!
PROOFS. Every instruction ends in a next state, and what that state leaves unchanged: the frames of the shared
operations not framed above, and the frame of `exec` in the writers' table (10_state.md section 1).
-/

namespace Sys2Proof.Machine

/-! ### Frames -/

/-- A frame may always be read as allowing more. -/
theorem UnchangedExcept.mono {ws wt : List Element} {s t : State} (h : UnchangedExcept ws s t) (hsub : ws ⊆ wt) :
    UnchangedExcept wt s t :=
  fun e he => h e fun hmem => he (hsub hmem)

theorem State.consumeDraw_unchangedExcept (s : State) : UnchangedExcept [.rng] s s.consumeDraw := by
  intro e he
  have hs := e.same_refl s
  cases e with
  | rng => exact absurd List.mem_cons_self he
  | _ => exact hs

/-- 60_exceptions.md R124: a fault writes pc, `running` and the latch, and no other element. -/
theorem State.raise_unchangedExcept (s : State) (f : FaultCode) :
    UnchangedExcept [.pc, .running, .fault] s (s.raise f) := by
  intro e he
  have hs := e.same_refl s
  cases e with
  | pc | running | fault => simp at he
  | _ => exact hs

/-- 41_alu.md R84: the two statements of a flag-writing instruction write registers only. -/
theorem State.flagThenResult_unchangedExcept (s : State) (x y : RegNum) (flag : Byte → Byte → Bool)
    (result : Byte → Byte → Byte) : UnchangedExcept [.registers] s (s.flagThenResult x y flag result) :=
  ((s.setV_unchangedExcept vf _).trans (State.setV_unchangedExcept _ x _)).mono (by simp)

theorem State.pushAndGo_of_lt (s : State) (a : Word) (h : s.sp.val < 16) : s.pushAndGo a =
    { s with stack := s.stack.set s.sp.val s.pc, sp := ⟨s.sp.val + 1, by omega⟩, pc := a } := dif_pos h

theorem State.pushAndGo_of_full (s : State) (a : Word) (h : s.sp.val = 16) :
    s.pushAndGo a = s.raise .stackOverflow := dif_neg (by omega)

theorem State.popAndGo_of_pos (s : State) (h : 0 < s.sp.val) : s.popAndGo =
    { s with sp := ⟨s.sp.val - 1, by omega⟩, pc := s.stack[s.sp.val - 1] } := dif_pos h

theorem State.popAndGo_of_empty (s : State) (h : s.sp.val = 0) :
    s.popAndGo = s.raise .stackUnderflow := dif_neg (by omega)

/-- 40_flow.md R66: a call that finds room writes the stack, sp and pc. -/
theorem State.pushAndGo_unchangedExcept (s : State) (a : Word) (h : s.sp.val < 16) :
    UnchangedExcept [.stack, .sp, .pc] s (s.pushAndGo a) := by
  intro e he
  have hs := e.same_refl s
  rw [s.pushAndGo_of_lt a h]
  cases e with
  | stack | sp | pc => simp at he
  | _ => exact hs

/-- 40_flow.md R64: a return that finds an entry writes sp and pc. -/
theorem State.popAndGo_unchangedExcept (s : State) (h : 0 < s.sp.val) :
    UnchangedExcept [.sp, .pc] s s.popAndGo := by
  intro e he
  have hs := e.same_refl s
  rw [s.popAndGo_of_pos h]
  cases e with
  | sp | pc => simp at he
  | _ => exact hs

/-! ### The next state -/

/-- The next state of an instruction; `exec_eq_next` says that `exec` always answers one. -/
def nextState (i : Instr) (s : State) : State :=
  match exec i s with
  | .next t => t
  | .fault _ | .refused _ => s

/-- 45_host_operations.md R105 (c): no instruction ends in a fault or a refusal of the model. -/
theorem exec_eq_next (i : Instr) (s : State) : exec i s = .next (nextState i s) := by
  cases i with
  | ldVxK x =>
    obtain ⟨k, -, h⟩ | ⟨-, h⟩ := execLdVxK_cases x s <;> rw [nextState, exec, h]
  | _ => rfl

theorem nextState_eq {i : Instr} {s t : State} (h : exec i s = .next t) : nextState i s = t := by
  rw [exec_eq_next] at h
  exact Host.Outcome.next.inj h

/-- Both outcomes of the key wait (44_timer_key.md R100). -/
theorem nextState_ldVxK_cases (x : RegNum) (s : State) :
    (∃ k, s.leastKey = some k ∧ nextState (.ldVxK x) s = s.setV x (BitVec.ofNat 8 k)) ∨
      (s.leastKey = none ∧ nextState (.ldVxK x) s = s.setPc s.pc0) := by
  obtain ⟨k, hk, h⟩ | ⟨hk, h⟩ := execLdVxK_cases x s
  · exact .inl ⟨k, hk, nextState_eq h⟩
  · exact .inr ⟨hk, nextState_eq h⟩

/-- The writers' table holds of every instruction. -/
theorem nextState_unchangedExcept (i : Instr) (s : State) : UnchangedExcept (mayWrite i) s (nextState i s) := by
  cases i with
  | cls => exact s.show_unchangedExcept _
  | ret =>
    show UnchangedExcept _ s s.popAndGo
    obtain ⟨h, -⟩ | ⟨-, h⟩ := s.popAndGo_cases
    · exact (s.popAndGo_unchangedExcept h).mono (by simp [mayWrite])
    · exact h ▸ (s.raise_unchangedExcept .stackUnderflow).mono (by simp [mayWrite])
  | call nnn =>
    show UnchangedExcept _ s (s.pushAndGo (zextImm nnn))
    obtain ⟨h, -⟩ | ⟨-, h⟩ := s.pushAndGo_cases (zextImm nnn)
    · exact (s.pushAndGo_unchangedExcept (zextImm nnn) h).mono (by simp [mayWrite])
    · exact h ▸ (s.raise_unchangedExcept .stackOverflow).mono (by simp [mayWrite])
  | jp nnn | jpV0 nnn => exact s.setPc_unchangedExcept _
  | seImm x nn | sneImm x nn | seReg x y | sneReg x y | skp x | sknp x => exact s.skipIf_unchangedExcept _
  | ldImm x nn | addImm x nn | ldReg x y | orReg x y | andReg x y | xorReg x y | ldVxDt x =>
    exact s.setV_unchangedExcept x _
  | addReg x y | sub x y | shr x y | subn x y | shl x y => exact s.flagThenResult_unchangedExcept x y _ _
  | rnd x nn =>
    exact (s.consumeDraw_unchangedExcept.trans (State.setV_unchangedExcept _ x _)).mono (by simp [mayWrite])
  | drw x y n => exact (s.show_unchangedExcept _).trans (State.setV_unchangedExcept _ vf _)
  | ldI nnn | addI x | ldF x => exact s.setIndex_unchangedExcept _
  | ldVxK x =>
    obtain ⟨k, -, h⟩ | ⟨-, h⟩ := nextState_ldVxK_cases x s <;> rw [h]
    · exact (s.setV_unchangedExcept x _).mono (by simp [mayWrite])
    · exact (s.setPc_unchangedExcept _).mono (by simp [mayWrite])
  | ldDtVx x => exact s.setDelay_unchangedExcept _
  | ldStVx x => exact s.setSound_unchangedExcept _
  | ldB x => exact s.setMemory_unchangedExcept _
  | stRegs x => exact (s.setMemory_unchangedExcept _).trans (State.setIndex_unchangedExcept _ _)
  | ldRegs x => exact (s.setRegisters_unchangedExcept _).trans (State.setIndex_unchangedExcept _ _)

/-- Settles O40: the next state is the one that `nextState_unchangedExcept` is about. -/
theorem instructionFrame : Obligations.InstructionFrame := fun i s _ h =>
  nextState_eq h ▸ nextState_unchangedExcept i s

end Sys2Proof.Machine
end

section
/-!
PROOFS. The call stack (40_flow.md): calls, returns, their two faults, and the return that undoes a call.
-/

namespace Sys2Proof.Machine

theorem State.raise_faultEntry (s : State) (f : FaultCode) : FaultEntry f s (s.raise f) :=
  ⟨rfl, rfl, rfl, s.raise_unchangedExcept f⟩

theorem completes_call (nnn : Imm12) {s : State} (h : s.sp.val < 16) :
    Completes (.call nnn) s (s.pushAndGo (zextImm nnn)) := ⟨rfl, if_pos h⟩

theorem completes_ret {s : State} (h : 0 < s.sp.val) : Completes .ret s s.popAndGo := ⟨rfl, if_pos h⟩

theorem exec_call_of_full (nnn : Imm12) {s : State} (h : s.sp.val = 16) :
    exec (.call nnn) s = .next (s.raise .stackOverflow) :=
  congrArg Host.Outcome.next (s.pushAndGo_of_full (zextImm nnn) h)

theorem exec_ret_of_empty {s : State} (h : s.sp.val = 0) : exec .ret s = .next (s.raise .stackUnderflow) :=
  congrArg Host.Outcome.next (s.popAndGo_of_empty h)

theorem execEvent_call_of_full (nnn : Imm12) {s : State} (h : s.sp.val = 16) :
    execEvent (.call nnn) s = .stackOverflow (s.pc - 2) := if_neg (by omega)

theorem execEvent_ret_of_empty {s : State} (h : s.sp.val = 0) :
    execEvent .ret s = .stackUnderflow (s.pc - 2) := if_neg (by omega)

/-- Settles O15: with room the entry at sp is written, without it the fault is raised. -/
theorem callPushesOrOverflows : Obligations.CallPushesOrOverflows := by
  intro nnn s
  refine ⟨fun h => ⟨_, completes_call nnn h, ?_, ?_, ?_, ?_, s.pushAndGo_unchangedExcept (zextImm nnn) h⟩,
    fun h => ⟨_, exec_call_of_full nnn h, s.raise_faultEntry .stackOverflow, execEvent_call_of_full nnn h⟩⟩
  all_goals rw [s.pushAndGo_of_lt (zextImm nnn) h]
  · exact Vector.getElem_set_self _
  · exact fun k hk => Vector.getElem_set_ne h k.isLt (Ne.symm hk)
  · exact zextImm_toNat nnn

/-- Settles O16: with an entry the last one is popped, without it the fault is raised. -/
theorem returnPopsOrUnderflows : Obligations.ReturnPopsOrUnderflows := by
  intro s
  refine ⟨fun h => ⟨_, completes_ret h, ?_, ?_, s.popAndGo_unchangedExcept h⟩,
    fun h => ⟨_, exec_ret_of_empty h, s.raise_faultEntry .stackUnderflow, execEvent_ret_of_empty h⟩⟩
  all_goals rw [s.popAndGo_of_pos h]

/-- Settles O17: the return pops the entry that the call wrote at the old sp. -/
theorem callThenReturn : Obligations.CallThenReturn := by
  intro nnn s h
  have hcall := s.pushAndGo_of_lt (zextImm nnn) h
  refine ⟨_, congrArg Host.Outcome.next hcall, fun p => ⟨_, rfl, ?_⟩⟩
  rw [State.popAndGo_of_pos _ (Nat.succ_pos s.sp.val)]
  exact ⟨Vector.getElem_set_self _, rfl⟩

end Sys2Proof.Machine
end

section
/-!
PROOFS. Totality and the data invariant: every step and every host operation ends in a next state and keeps memory and
the breakpoint set in canonical form, and with them so does every schedule.
-/

namespace Sys2Proof.Machine

/-! ### Totality -/

theorem step_total (s : State) : ∃ t, step s = .next t := by
  obtain ⟨-, h⟩ | ⟨-, -, h⟩ | ⟨-, -, e, -, h⟩ | ⟨-, -, i, -, h⟩ := step_cases s
  · exact ⟨_, h⟩
  · exact ⟨_, h⟩
  · exact ⟨_, h⟩
  · exact ⟨_, h.trans (exec_eq_next i s.advancePc)⟩

/-- Everything a step can end in, by the four ways it goes (45_host_operations.md R104). -/
theorem step_next_cases {s t : State} (h : step s = .next t) :
    (s.running = false ∧ t = s) ∨
      (s.running = true ∧ s.pc ∈ s.breakpoints ∧ t = s.setRunning false) ∨
      (s.running = true ∧ s.pc ∉ s.breakpoints ∧ ∃ e, decode s.fetchWord = .error e ∧ t = s.advancePc) ∨
      (s.running = true ∧ s.pc ∉ s.breakpoints ∧
        ∃ i, decode s.fetchWord = .ok i ∧ t = nextState i s.advancePc) := by
  obtain ⟨hr, hs⟩ | ⟨hr, hb, hs⟩ | ⟨hr, hb, e, hd, hs⟩ | ⟨hr, hb, i, hd, hs⟩ := step_cases s
  all_goals rw [hs] at h
  · exact .inl ⟨hr, (Host.Outcome.next.inj h).symm⟩
  · exact .inr (.inl ⟨hr, hb, (Host.Outcome.next.inj h).symm⟩)
  · exact .inr (.inr (.inl ⟨hr, hb, e, hd, (Host.Outcome.next.inj h).symm⟩))
  · exact .inr (.inr (.inr ⟨hr, hb, i, hd, (nextState_eq h).symm⟩))

theorem operate_total (op : HostOp) (s : State) : ∃ t, operate op s = .next t := by
  cases op with
  | cycle => exact step_total s
  | _ => exact ⟨_, rfl⟩

/-- A schedule goes on from where its first operation ends. -/
theorem runSchedule_cons {op : HostOp} {s t : State} (h : operate op s = .next t) (ops : List HostOp) :
    runSchedule (op :: ops) s = runSchedule ops t := by
  rw [runSchedule, h]

theorem runSchedule_total (ops : List HostOp) (s : State) : ∃ t, runSchedule ops s = .next t := by
  induction ops generalizing s with
  | nil => exact ⟨s, rfl⟩
  | cons op ops ih =>
    obtain ⟨t, ht⟩ := operate_total op s
    rw [runSchedule_cons ht]
    exact ih t

/-- Settles O12: no instruction and no host operation answers a fault or a refusal. -/
theorem everythingTerminates : Obligations.EverythingTerminates := ⟨step_total, runSchedule_total⟩

/-- What every operation keeps, every schedule keeps. -/
theorem runSchedule_invariant {P : State → Prop} (hP : ∀ op s t, P s → operate op s = .next t → P t)
    (ops : List HostOp) {s t : State} (hs : P s) (h : runSchedule ops s = .next t) : P t := by
  induction ops generalizing s with
  | nil => exact Host.Outcome.next.inj h ▸ hs
  | cons op ops ih =>
    obtain ⟨u, hu⟩ := operate_total op s
    rw [runSchedule_cons hu] at h
    exact ih (hP op s u hs hu) h

/-! ### The data invariant -/

/-- The invariant is about memory and the breakpoint set alone. -/
theorem State.wf_congr {s t : State} (hm : t.memory = s.memory) (hb : t.breakpoints = s.breakpoints) (hs : s.wf) :
    t.wf := by
  obtain ⟨hmem, hbp⟩ := hs
  exact ⟨hm ▸ hmem, hb ▸ hbp⟩

/-- Writing a sequence of bytes keeps the invariant. -/
theorem State.wf_setMemory_writeBytes {s : State} (hs : s.wf) (a : Nat) (vs : List Byte) :
    (s.setMemory (Memory.writeBytes s.memory a vs)).wf := by
  obtain ⟨hmem, hbp⟩ := hs
  exact ⟨Memory.wf_writeBytes hmem a vs, hbp⟩

/-- Only Fx33 and Fx55 write memory, by sequences of bytes, and no instruction writes a breakpoint. -/
theorem nextState_wf (i : Instr) {s : State} (hs : s.wf) : (nextState i s).wf := by
  cases i with
  | ldB x => exact State.wf_setMemory_writeBytes hs _ _
  | stRegs x => exact State.wf_setMemory_writeBytes hs _ _
  | ret => exact State.wf_congr s.popAndGo_memory s.popAndGo_breakpoints hs
  | call nnn => exact State.wf_congr (s.pushAndGo_memory _) (s.pushAndGo_breakpoints _) hs
  | seImm x nn | sneImm x nn | seReg x y | sneReg x y | skp x | sknp x =>
    exact State.wf_congr (s.skipIf_memory _) (s.skipIf_breakpoints _) hs
  | ldVxK x =>
    obtain ⟨k, -, h⟩ | ⟨-, h⟩ := nextState_ldVxK_cases x s <;> rw [h] <;> exact hs
  | _ => exact hs

/-- Settles O48: a step keeps memory and breakpoints, or executes an instruction, which keeps the invariant. -/
theorem stepKeepsWellFormed : Obligations.StepKeepsWellFormed := by
  intro s t hs h
  obtain ⟨-, rfl⟩ | ⟨-, -, rfl⟩ | ⟨-, -, e, -, rfl⟩ | ⟨-, -, i, -, rfl⟩ := step_next_cases h
  · exact hs
  · exact State.wf_congr rfl rfl hs
  · exact State.wf_congr rfl rfl hs
  · exact nextState_wf i (State.wf_congr rfl rfl hs)

/-- Settles O49: the state after power-on lists no byte and no breakpoint. -/
theorem resetIsWellFormed : Obligations.ResetIsWellFormed := ⟨Memory.wf_reset, List.Pairwise.nil⟩

theorem State.tick_wf {s : State} (hs : s.wf) : s.tick.wf := by
  obtain ⟨-, h⟩ | ⟨-, h⟩ := s.tick_cases <;> rw [h] <;> exact hs

theorem State.reportKey_wf {s : State} (hs : s.wf) (k : Int) (down : Bool) : (s.reportKey k down).wf := by
  obtain ⟨j, -, h⟩ | ⟨-, h⟩ := s.reportKey_cases k down <;> rw [h] <;> exact hs

theorem State.loadRom_wf {s : State} (hs : s.wf) (rom : List Byte) : (s.loadRom rom).wf := by
  obtain ⟨-, h⟩ | ⟨-, h⟩ := s.loadRom_cases rom <;> rw [h]
  · exact State.wf_setMemory_writeBytes hs _ rom
  · exact hs

/-- A loaded state is built in canonical form, whatever the snapshot lists. -/
theorem State.load_wf (s : State) (p : Snapshot) : (s.load p).wf := by
  rw [State.wf, State.load_memory, State.load_breakpoints]
  exact ⟨Memory.wf_writeBytes Memory.wf_reset 0 p.memory, Breakpoints.wf_foldl_add p.breakpoints List.Pairwise.nil⟩

theorem operate_wf (op : HostOp) (s t : State) (hs : s.wf) (h : operate op s = .next t) : t.wf := by
  have ⟨hmem, hbp⟩ := hs
  cases op with
  | cycle => exact stepKeepsWellFormed s t hs h
  | tick => exact Host.Outcome.next.inj h ▸ State.tick_wf hs
  | keyDown k | keyUp k => exact Host.Outcome.next.inj h ▸ State.reportKey_wf hs k _
  | setBreakpoint a => exact Host.Outcome.next.inj h ▸ ⟨hmem, Breakpoints.wf_add hbp a⟩
  | clearBreakpoint a => exact Host.Outcome.next.inj h ▸ ⟨hmem, Breakpoints.wf_remove hbp a⟩
  | pause | resume | hardStop | clearChanged | read a => exact Host.Outcome.next.inj h ▸ hs
  | takeChangedFramebuffer =>
    rw [← Host.Outcome.next.inj h]
    split <;> exact hs
  | reset seed => exact Host.Outcome.next.inj h ▸ ⟨Memory.wf_reset, hbp⟩
  | loadRom rom => exact Host.Outcome.next.inj h ▸ State.loadRom_wf hs rom
  | load p =>
    rw [← Host.Outcome.next.inj h]
    split
    · exact s.load_wf p
    · exact hs

/-- Settles O50: the invariant is kept by every operation, so by every schedule. -/
theorem scheduleKeepsWellFormed : Obligations.ScheduleKeepsWellFormed := fun ops _ _ hs h =>
  runSchedule_invariant operate_wf ops hs h

end Sys2Proof.Machine
end

section
/-!
PROOFS. The four ways of a step, one by one (45_host_operations.md R104, 60_exceptions.md R131).
-/

namespace Sys2Proof.Machine

/-! ### The four ways -/

theorem step_of_halted {s : State} (hr : s.running = false) : step s = .next s ∧ cycleEvent s = .idle := by
  constructor
  · simpa [hr] using step_cases s
  · simpa [hr] using cycleEvent_cases s

theorem step_of_error {s : State} {e : DecodeReject} (hr : s.running = true) (hb : s.pc ∉ s.breakpoints)
    (hd : decode s.fetchWord = .error e) :
    step s = .next s.advancePc ∧ cycleEvent s = .unknownOpcode s.pc s.fetchWord := by
  constructor
  · simpa [hr, hb, hd] using step_cases s
  · simpa [hr, hb, hd] using cycleEvent_cases s

theorem step_of_ok {s : State} {i : Instr} (hr : s.running = true) (hb : s.pc ∉ s.breakpoints)
    (hd : decode s.fetchWord = .ok i) :
    step s = exec i s.advancePc ∧ cycleEvent s = execEvent i s.advancePc := by
  constructor
  · simpa [hr, hb, hd] using step_cases s
  · simpa [hr, hb, hd] using cycleEvent_cases s

theorem State.advancePc_unchangedExcept (s : State) : UnchangedExcept [.pc] s s.advancePc :=
  s.setPc_unchangedExcept (s.pc + 2)

/-- The address of the executing instruction, seen from the state whose pc is advanced (00_scope.md section 7). -/
theorem State.advancePc_pc_sub (s : State) : s.advancePc.pc - 2 = s.pc :=
  BitVec.add_sub_cancel s.pc 2

/-- Settles O6: this is the fourth way, with the advanced state written out. -/
theorem stepRunsDecodedInstruction : Obligations.StepRunsDecodedInstruction := fun _ _ => step_of_ok

/-- Settles O8: the word is rejected by the decoder, so the step only advances pc. -/
theorem unrecognisedWordOnlyAdvances : Obligations.UnrecognisedWordOnlyAdvances := by
  intro s hr hb hword
  obtain ⟨e, hd⟩ := (recognised_eq_false_iff s.fetchWord).mp hword
  obtain ⟨hstep, hevent⟩ := step_of_error hr hb hd
  exact ⟨_, hstep, s.advancePc_pc, s.advancePc_unchangedExcept, hevent⟩

/-- A halt undone by a resume is no change. -/
theorem State.resume_setRunning_false {s : State} (hr : s.running = true) : (s.setRunning false).resume = s := by
  rw [State.resume, State.setRunning, State.setRunning, ← hr]

/-- Settles O9: the halt writes `running` only, which the resume sets again. -/
theorem breakpointHaltsBeforeFetch : Obligations.BreakpointHaltsBeforeFetch := by
  intro s hr hb
  obtain ⟨hstep, hevent⟩ := halts_at_breakpoint s hr hb
  exact ⟨_, hstep, rfl, s.setRunning_unchangedExcept false, hevent,
    congrArg Host.Outcome.next (State.resume_setRunning_false hr)⟩

theorem State.tick_of_halted {s : State} (hr : s.running = false) : s.tick = s := by
  simpa [hr] using s.tick_cases

/-- Settles O10: the first way of a step, and the tick's guard. -/
theorem haltedMachineStandsStill : Obligations.HaltedMachineStandsStill := by
  intro s hr
  obtain ⟨hstep, hevent⟩ := step_of_halted hr
  exact ⟨hstep, hevent, hstep, congrArg Host.Outcome.next (State.tick_of_halted hr)⟩

/-! ### Events -/

/-- 60_exceptions.md R122: an instruction that takes no stack fault returns Executed. -/
theorem execEvent_of_no_fault {i : Instr} {s : State} (hcall : ¬((∃ nnn, i = .call nnn) ∧ s.sp.val = 16))
    (hret : ¬(i = .ret ∧ s.sp.val = 0)) : execEvent i s = .executed := by
  cases i with
  | call nnn =>
    have : s.sp.val ≠ 16 := fun h => hcall ⟨⟨nnn, rfl⟩, h⟩
    exact if_pos (by omega)
  | ret =>
    have : s.sp.val ≠ 0 := fun h => hret ⟨rfl, h⟩
    exact if_pos (by omega)
  | _ => rfl

/-- Settles O11: each clause is one way of the step; on an instruction the stack faults come before Executed. -/
theorem eventPriority : Obligations.EventPriority := by
  intro s
  refine ⟨fun hr => ?_, fun hr hb => ?_, fun hr hb hword => ?_, fun i hr hb hd => ⟨?_, ?_, ?_⟩⟩
  · rw [(step_of_halted hr).2]
    exact ⟨rfl, rfl⟩
  · rw [(halts_at_breakpoint s hr hb).2]
    exact ⟨rfl, rfl⟩
  · obtain ⟨e, hd⟩ := (recognised_eq_false_iff s.fetchWord).mp hword
    rw [(step_of_error hr hb hd).2]
    exact ⟨rfl, rfl⟩
  · rintro ⟨⟨nnn, rfl⟩, hsp⟩
    rw [(step_of_ok hr hb hd).2, execEvent_call_of_full nnn (s := s.advancePc) hsp, State.advancePc_pc_sub]
    exact ⟨rfl, rfl⟩
  · rintro ⟨rfl, hsp⟩
    rw [(step_of_ok hr hb hd).2, execEvent_ret_of_empty (s := s.advancePc) hsp, State.advancePc_pc_sub]
    exact ⟨rfl, rfl⟩
  · intro hcall hret
    rw [(step_of_ok hr hb hd).2, execEvent_of_no_fault (s := s.advancePc) hcall hret]
    exact ⟨rfl, rfl⟩

/-! ### Stack faults, and going on after one -/

/-- The state a stack fault in `s` leaves, once resumed: `s` itself with the latch set. -/
theorem State.resume_raise_advancePc {s : State} (hr : s.running = true) (f : FaultCode) :
    (s.advancePc.raise f).resume = { s with fault := f } := by
  simp only [State.resume, State.setRunning, State.raise, State.pc0, State.advancePc_pc_sub]
  rw [← hr]
  rfl

/-- A faulting call or return raises the same fault with the same event, whatever the latch holds. -/
theorem stackFault_cases {i : Instr} {s : State}
    (h : ((∃ nnn, i = .call nnn) ∧ s.sp.val = 16) ∨ (i = .ret ∧ s.sp.val = 0)) :
    ∃ (f : FaultCode), f ≠ .none ∧ ∀ g : FaultCode,
      exec i ({ s with fault := g }).advancePc = .next (s.advancePc.raise f) ∧
      execEvent i ({ s with fault := g }).advancePc = execEvent i s.advancePc := by
  obtain ⟨⟨nnn, rfl⟩, hsp⟩ | ⟨rfl, hsp⟩ := h
  · exact ⟨.stackOverflow, by decide, fun g => ⟨exec_call_of_full nnn hsp, rfl⟩⟩
  · exact ⟨.stackUnderflow, by decide, fun g => ⟨exec_ret_of_empty hsp, rfl⟩⟩

/-- Settles O43: the fault raised does not depend on the latch, which is all that differs after the resume. -/
theorem stackFaultRepeatsOnResume : Obligations.StackFaultRepeatsOnResume := by
  intro s i hr hb hd h
  obtain ⟨f, hf, hfault⟩ := stackFault_cases h
  obtain ⟨hstep, hevent⟩ := step_of_ok hr hb hd
  obtain ⟨hstep', hevent'⟩ := step_of_ok (s := { s with fault := f }) hr hb hd
  refine ⟨s.advancePc.raise f, { s with fault := f }, hstep.trans (hfault s.fault).1, s.advancePc_pc_sub, rfl, hf,
    congrArg Host.Outcome.next (State.resume_raise_advancePc hr f), rfl, hstep'.trans (hfault f).1, ?_⟩
  rw [hevent', hevent, (hfault f).2]

end Sys2Proof.Machine
end

section
/-!
PROOFS. Properties of the whole machine, derived from the frame of `exec` (10_state.md, 60_exceptions.md section 9): who
writes VF, who halts the engine, where pc goes, what a program and a host leave alone, and what the random source shows.
-/

namespace Sys2Proof.Machine

/-! ### The flag register -/

theorem flagByte_eq_zero_or_one (c : Bool) : flagByte c = 0 ∨ flagByte c = 1 := by
  cases c with
  | false => exact .inl rfl
  | true => exact .inr rfl

/-- Where VF is not the destination, a flag-writing instruction leaves its flag there. -/
theorem State.v_vf_flagThenResult {x : RegNum} (hx : x ≠ 15) (s : State) (y : RegNum) (flag : Byte → Byte → Bool)
    (result : Byte → Byte → Byte) :
    (s.flagThenResult x y flag result).v 15 = flagByte (flag (s.v x) (s.v y)) := by
  rw [State.v_flagThenResult, if_neg (Ne.symm hx), if_pos rfl]

theorem State.v_vf_setV {x : RegNum} (hx : some x ≠ some 15) (s : State) (b : Byte) : (s.setV x b).v 15 = s.v 15 :=
  (s.setV_frame x b).1 15 fun h => hx (congrArg some h.symm)

/-- An instruction outside the six writes no register but its destination, and Fx65 none above its x. -/
theorem nextState_v_vf {i : Instr} (hi : writesFlag i = false) (hx : destination i ≠ some 15) (s : State) :
    (nextState i s).v 15 = s.v 15 := by
  cases i with
  | ldImm x nn | addImm x nn | ldReg x y | orReg x y | andReg x y | xorReg x y | ldVxDt x =>
    exact State.v_vf_setV hx s _
  | rnd x nn => exact State.v_vf_setV hx s.consumeDraw _
  | ldVxK x =>
    obtain ⟨k, -, h⟩ | ⟨-, h⟩ := nextState_ldVxK_cases x s <;> rw [h]
    · exact State.v_vf_setV hx s _
    · rfl
  | ldRegs x =>
    have hlt : ¬15 < x.val + 1 := fun h => hx (congrArg some (Fin.ext (by show x.val = 15; omega)))
    exact (fillRegisters_readBytes_getElem s.registers s.memory s.index.toNat (x.val + 1) 15).trans (if_neg hlt)
  | addReg x y | sub x y | shr x y | subn x y | shl x y | drw x y n => cases hi
  | _ => exact nextState_unchangedExcept _ s .registers (by simp [mayWrite]) 15

/-- Settles O41: by the writers' table and, for the six, by the flag they write first or last. -/
theorem flagRegisterWriters : Obligations.FlagRegisterWriters := by
  intro i s t h
  rw [← nextState_eq h]
  refine ⟨fun hi hx => nextState_v_vf hi hx s, fun hi hx => ?_⟩
  cases i with
  | addReg x y | sub x y | shr x y | subn x y | shl x y =>
    have hx' : x ≠ 15 := fun h => hx (congrArg some h)
    exact (State.v_vf_flagThenResult hx' s y _ _).symm ▸ flagByte_eq_zero_or_one _
  | drw x y n => exact (State.v_setFlag _ _ 15).symm ▸ flagByte_eq_zero_or_one _
  | _ => cases hi

/-! ### Run control and the fault latch -/

/-- 60_exceptions.md R129: without a stack fault an instruction leaves `running` and the latch alone. -/
theorem nextState_running_fault {i : Instr} {s : State} (hcall : ¬((∃ nnn, i = .call nnn) ∧ s.sp.val = 16))
    (hret : ¬(i = .ret ∧ s.sp.val = 0)) :
    (nextState i s).running = s.running ∧ (nextState i s).fault = s.fault := by
  cases i with
  | call nnn =>
    have : s.sp.val ≠ 16 := fun h => hcall ⟨⟨nnn, rfl⟩, h⟩
    have hframe := s.pushAndGo_unchangedExcept (zextImm nnn) (by omega)
    exact ⟨hframe .running (by decide), hframe .fault (by decide)⟩
  | ret =>
    have : s.sp.val ≠ 0 := fun h => hret ⟨rfl, h⟩
    have hframe := s.popAndGo_unchangedExcept (by omega)
    exact ⟨hframe .running (by decide), hframe .fault (by decide)⟩
  | _ =>
    exact ⟨nextState_unchangedExcept _ s .running (by simp [mayWrite]),
      nextState_unchangedExcept _ s .fault (by simp [mayWrite])⟩

/-- Settles O42: an instruction that is neither of the two faults leaves both elements. -/
theorem onlyStackFaultsHalt : Obligations.OnlyStackFaultsHalt := by
  intro i s t h hchange
  rw [← nextState_eq h] at hchange
  by_contra hno
  obtain ⟨hcall, hret⟩ := not_or.mp hno
  obtain ⟨hrunning, hfault⟩ := nextState_running_fault hcall hret
  exact hchange.elim (· hrunning) (· hfault)

/-! ### The program counter -/

/-- A skip in a step ends two or four past the instruction. -/
theorem State.advancePc_skipIf_pc (s : State) (c : Bool) :
    (s.advancePc.skipIf c).pc = s.pc + 2 ∨ (s.advancePc.skipIf c).pc = s.pc + 4 := by
  cases c with
  | false => exact .inl rfl
  | true => exact .inr (BitVec.add_assoc s.pc 2 2)

/-- Settles O44: pc is the advanced one except in the instructions that the writers' table lists for it. -/
theorem pcAfterStep : Obligations.PcAfterStep := by
  intro s t i hr hb hd h
  rw [(step_of_ok hr hb hd).1] at h
  rw [← nextState_eq h]
  cases i with
  | jp nnn => exact zextImm_toNat nnn
  | jpV0 nnn => exact zextImm_add_zextByte_toNat nnn (s.v 0)
  | call nnn =>
    refine ⟨fun hsp => ?_, fun hsp => ?_⟩
    · exact (congrArg (·.pc.toNat) (s.advancePc.pushAndGo_of_lt (zextImm nnn) hsp)).trans (zextImm_toNat nnn)
    · exact (congrArg (·.pc) (s.advancePc.pushAndGo_of_full (zextImm nnn) hsp)).trans s.advancePc_pc_sub
  | ret =>
    refine ⟨fun hsp => ?_, fun k hsp => ?_⟩
    · exact (congrArg (·.pc) (s.advancePc.popAndGo_of_empty hsp)).trans s.advancePc_pc_sub
    · have hpos : 0 < s.advancePc.sp.val := by rw [State.advancePc_sp, hsp]; exact Nat.succ_pos k.val
      refine (congrArg (·.pc) (s.advancePc.popAndGo_of_pos hpos)).trans ?_
      simp [hsp]
  | seImm x nn | sneImm x nn | seReg x y | sneReg x y | skp x | sknp x => exact s.advancePc_skipIf_pc _
  | ldVxK x =>
    obtain ⟨k, -, hk⟩ | ⟨-, hk⟩ := nextState_ldVxK_cases x s.advancePc <;> rw [hk]
    · exact .inl rfl
    · exact .inr s.advancePc_pc_sub
  | _ => exact nextState_unchangedExcept _ s.advancePc .pc (by simp [mayWrite])

/-! ### What a program and a host leave alone -/

/-- 10_state.md section 1: no instruction writes keys or breakpoints. -/
theorem keys_breakpoints_notMem_mayWrite (i : Instr) :
    Element.keys ∉ mayWrite i ∧ Element.breakpoints ∉ mayWrite i := by
  cases i <;> simp [mayWrite]

theorem eq_ldDtVx_of_delayTimer_mem_mayWrite {i : Instr} (h : Element.delayTimer ∈ mayWrite i) :
    ∃ x, i = .ldDtVx x := by
  cases i <;> simp [mayWrite] at h ⊢

theorem eq_ldStVx_of_soundTimer_mem_mayWrite {i : Instr} (h : Element.soundTimer ∈ mayWrite i) :
    ∃ x, i = .ldStVx x := by
  cases i <;> simp [mayWrite] at h ⊢

/-- 10_state.md R24: an instruction sets `changed` or leaves it. -/
theorem nextState_changed (i : Instr) (s : State) (h : s.changed = true) : (nextState i s).changed = true := by
  cases i with
  | cls => rfl
  | drw x y n => rfl
  | _ => exact (nextState_unchangedExcept _ s .changed (by simp [mayWrite])).trans h

/-- 10_state.md R29: an instruction sets the latch to a stack fault or leaves it. -/
theorem nextState_fault (i : Instr) (s : State) (h : s.fault ≠ .none) : (nextState i s).fault ≠ .none := by
  cases i with
  | call nnn =>
    show (s.pushAndGo (zextImm nnn)).fault ≠ .none
    obtain ⟨_, hpush⟩ | ⟨-, hraise⟩ := s.pushAndGo_cases (zextImm nnn)
    · rwa [hpush]
    · simp [hraise]
  | ret =>
    show s.popAndGo.fault ≠ .none
    obtain ⟨_, hpop⟩ | ⟨-, hraise⟩ := s.popAndGo_cases
    · rwa [hpop]
    · simp [hraise]
  | _ => exact fun hnone => h ((nextState_unchangedExcept _ s .fault (by simp [mayWrite])).symm.trans hnone)

/-- 60_exceptions.md R135: the elements that no step writes. -/
theorem step_unchangedExcept {s t : State} (h : step s = .next t) :
    UnchangedExcept [.memory, .registers, .index, .pc, .stack, .sp, .delayTimer, .soundTimer, .framebuffer, .changed,
      .running, .rng, .fault] s t := by
  obtain ⟨-, rfl⟩ | ⟨-, -, rfl⟩ | ⟨-, -, e, -, rfl⟩ | ⟨-, -, i, -, rfl⟩ := step_next_cases h
  · exact .refl _ _
  · exact (s.setRunning_unchangedExcept false).mono (by simp)
  · exact s.advancePc_unchangedExcept.mono (by simp)
  · obtain ⟨hkeys, hbreakpoints⟩ := keys_breakpoints_notMem_mayWrite i
    have hframe := nextState_unchangedExcept i s.advancePc
    intro e he
    cases e with
    | keys => exact hframe .keys hkeys
    | breakpoints => exact hframe .breakpoints hbreakpoints
    | _ => simp at he

/-- Settles O45: outside an executed instruction a step writes pc or `running` only, and an executed instruction keeps
to the writers' table. -/
theorem programLeavesHostState : Obligations.ProgramLeavesHostState := by
  intro s t h
  refine ⟨step_unchangedExcept h, ?_⟩
  obtain ⟨-, rfl⟩ | ⟨hr, -, rfl⟩ | ⟨hr, -, e, -, rfl⟩ | ⟨hr, -, i, hd, rfl⟩ := step_next_cases h
  · exact ⟨id, id, id, fun h => absurd rfl h, fun h => absurd rfl h⟩
  · exact ⟨fun _ => hr, id, id, fun h => absurd rfl h, fun h => absurd rfl h⟩
  · exact ⟨fun _ => hr, id, id, fun h => absurd rfl h, fun h => absurd rfl h⟩
  · have hframe := nextState_unchangedExcept i s.advancePc
    refine ⟨fun _ => hr, nextState_changed i s.advancePc, nextState_fault i s.advancePc, fun hdelay => ?_,
      fun hsound => ?_⟩
    · obtain ⟨x, rfl⟩ := eq_ldDtVx_of_delayTimer_mem_mayWrite (by_contra fun hno => hdelay (hframe .delayTimer hno))
      exact ⟨x, hd⟩
    · obtain ⟨x, rfl⟩ := eq_ldStVx_of_soundTimer_mem_mayWrite (by_contra fun hno => hsound (hframe .soundTimer hno))
      exact ⟨x, hd⟩

theorem State.clearChanged_unchangedExcept (s : State) : UnchangedExcept [.changed] s s.clearChanged := by
  intro e he
  have hs := e.same_refl s
  cases e with
  | changed => exact absurd List.mem_cons_self he
  | _ => exact hs

/-- 45_host_operations.md R106: a tick writes the timers only. -/
theorem State.tick_unchangedExcept (s : State) : UnchangedExcept [.delayTimer, .soundTimer] s s.tick := by
  obtain ⟨-, h⟩ | ⟨-, h⟩ := s.tick_cases <;> rw [h]
  · exact (s.setDelay_unchangedExcept _).trans (State.setSound_unchangedExcept _ _)
  · exact .refl _ s

/-- 70_reset_and_hazards.md R146, R147: a ROM load writes memory and `running` only. -/
theorem State.loadRom_unchangedExcept (s : State) (rom : List Byte) :
    UnchangedExcept [.memory, .running] s (s.loadRom rom) := by
  obtain ⟨-, h⟩ | ⟨-, h⟩ := s.loadRom_cases rom <;> rw [h]
  · exact (s.setMemory_unchangedExcept _).trans (State.setRunning_unchangedExcept _ true)
  · exact .refl _ s

/-- Settles O46: the frame of each operation lies within the list. -/
theorem hostLeavesProgramState : Obligations.HostLeavesProgramState := by
  intro op s t hcycle hreset hload h
  cases op with
  | cycle => exact absurd rfl hcycle
  | reset seed => exact absurd rfl (hreset seed)
  | load p => exact absurd rfl (hload p)
  | tick => exact Host.Outcome.next.inj h ▸ s.tick_unchangedExcept.mono (by simp)
  | keyDown k | keyUp k => exact Host.Outcome.next.inj h ▸ (s.reportKey_unchangedExcept k _).mono (by simp)
  | setBreakpoint a | clearBreakpoint a =>
    exact Host.Outcome.next.inj h ▸ (s.setBreakpoints_unchangedExcept _).mono (by simp)
  | pause | resume | hardStop => exact Host.Outcome.next.inj h ▸ (s.setRunning_unchangedExcept _).mono (by simp)
  | takeChangedFramebuffer =>
    rw [← Host.Outcome.next.inj h]
    split
    · exact s.clearChanged_unchangedExcept.mono (by simp)
    · exact .refl _ s
  | clearChanged => exact Host.Outcome.next.inj h ▸ s.clearChanged_unchangedExcept.mono (by simp)
  | read a => exact Host.Outcome.next.inj h ▸ .refl _ s
  | loadRom rom => exact Host.Outcome.next.inj h ▸ (s.loadRom_unchangedExcept rom).mono (by simp)

/-! ### The random source -/

theorem State.skipIf_with_rng (s : State) (r : Rng) (c : Bool) :
    State.skipIf { s with rng := r } c = { s.skipIf c with rng := r } := by
  cases c <;> rfl

theorem State.pushAndGo_with_rng (s : State) (r : Rng) (a : Word) :
    State.pushAndGo { s with rng := r } a = { s.pushAndGo a with rng := r } := by
  unfold State.pushAndGo
  split <;> rfl

theorem State.popAndGo_with_rng (s : State) (r : Rng) :
    State.popAndGo { s with rng := r } = { s.popAndGo with rng := r } := by
  unfold State.popAndGo
  split <;> rfl

/-- Outside Cxnn no instruction reads or writes the random source. -/
theorem nextState_with_rng {i : Instr} (hi : ∀ x nn, i ≠ .rnd x nn) (s : State) (r : Rng) :
    nextState i { s with rng := r } = { nextState i s with rng := r } := by
  cases i with
  | rnd x nn => exact absurd rfl (hi x nn)
  | call nnn => exact s.pushAndGo_with_rng r _
  | ret => exact s.popAndGo_with_rng r
  | seImm x nn | sneImm x nn | seReg x y | sneReg x y | skp x | sknp x => exact s.skipIf_with_rng r _
  | ldVxK x =>
    have hleast : State.leastKey { s with rng := r } = s.leastKey := rfl
    simp only [nextState, exec, execLdVxK, hleast]
    cases s.leastKey <;> rfl
  | _ => rfl

/-- 41_alu.md R85: two draws from different random sources leave the same but for the drawn register and the source. -/
theorem nextState_rnd_with_rng (x : RegNum) (nn : Byte) (s : State) (r : Rng) :
    (∀ q, q ≠ x → (nextState (.rnd x nn) { s with rng := r }).v q = (nextState (.rnd x nn) s).v q) ∧
      UnchangedExcept [.registers, .rng] (nextState (.rnd x nn) s) (nextState (.rnd x nn) { s with rng := r }) := by
  constructor
  · intro q hq
    have hframe := fun t : State => (t.consumeDraw.setV_frame x (t.randomByte &&& nn)).1 q hq
    exact (hframe { s with rng := r }).trans (hframe s).symm
  · intro e he
    have hs := e.same_refl (nextState (.rnd x nn) s)
    cases e with
    | registers | rng => simp at he
    | _ => exact hs

/-- Settles O47: a step without a draw passes the random source on, and one with a draw is compared register by
register. -/
theorem randomSourceSeenOnlyThroughDraws : Obligations.RandomSourceSeenOnlyThroughDraws := by
  intro s t r h
  refine ⟨fun hno => ?_, fun x nn hr hb hd => ?_⟩
  · obtain ⟨hr, rfl⟩ | ⟨hr, hb, rfl⟩ | ⟨hr, hb, e, hd, rfl⟩ | ⟨hr, hb, i, hd, rfl⟩ := step_next_cases h
    · exact (step_of_halted (s := { t with rng := r }) hr).1
    · exact (halts_at_breakpoint { s with rng := r } hr hb).1
    · exact (step_of_error (s := { s with rng := r }) hr hb hd).1
    · have hi : ∀ x nn, i ≠ .rnd x nn := fun x nn hx => hno x nn (hx ▸ hd)
      rw [(step_of_ok (s := { s with rng := r }) hr hb hd).1, exec_eq_next]
      exact congrArg Host.Outcome.next (nextState_with_rng hi s.advancePc r)
  · rw [(step_of_ok hr hb hd).1] at h
    rw [← nextState_eq h]
    have hstep := (step_of_ok (s := { s with rng := r }) hr hb hd).1
    exact ⟨_, hstep.trans (exec_eq_next _ _), nextState_rnd_with_rng x nn s.advancePc r⟩

end Sys2Proof.Machine
end

section
/-!
PROOFS. The flag-writing register instructions, the random byte (41_alu.md), and the remaining instructions on I and
memory (42_index_memory.md R88, 20_memory.md R49).
-/

namespace Sys2Proof.Machine

/-! ### Flag, then result -/

/-- An instruction that completes in `flagThenResult` writes, in numbers, the flag and the result that its two byte
functions compute. -/
theorem writesFlagThenResult_of_completes {i : Instr} {x y : RegNum} {bit : Byte → Byte → Bool}
    {byte : Byte → Byte → Byte} {flag : Nat → Nat → Prop} {result : Nat → Nat → Nat}
    (hi : ∀ s, Completes i s (s.flagThenResult x y bit byte)) (hflag : ∀ a b, bit a b = true ↔ flag a.toNat b.toNat)
    (hresult : ∀ a b, (byte a b).toNat = result a.toNat b.toNat) : WritesFlagThenResult i x y flag result := by
  intro s
  have hv := fun q => s.v_flagThenResult x y q bit byte
  refine ⟨_, (flagByte (bit (s.v x) (s.v y))).toNat, hi s, fun h => ?_, fun h => ?_, ?_, fun hx => ?_,
    fun r hrx hrf => ?_, s.flagThenResult_unchangedExcept x y bit byte⟩
  · rw [flagByte_toNat, if_pos ((hflag _ _).mpr h)]
  · rw [flagByte_toNat, if_neg (mt (hflag _ _).mp h)]
  · rw [hv, if_pos rfl, hresult, apply_ite BitVec.toNat, apply_ite BitVec.toNat]
  · rw [State.v_vf_flagThenResult hx]
  · rw [hv, if_neg hrx, if_neg hrf]

theorem completes_addReg (x y : RegNum) (s : State) :
    Completes (.addReg x y) s (s.flagThenResult x y carryOut (fun a b => a + b)) := ⟨rfl, rfl⟩

theorem completes_sub (x y : RegNum) (s : State) :
    Completes (.sub x y) s (s.flagThenResult x y exceeds (fun a b => a - b)) := ⟨rfl, rfl⟩

theorem completes_subn (x y : RegNum) (s : State) :
    Completes (.subn x y) s (s.flagThenResult x y (fun a b => exceeds b a) (fun a b => b - a)) := ⟨rfl, rfl⟩

theorem completes_shr (x y : RegNum) (s : State) :
    Completes (.shr x y) s (s.flagThenResult x y (fun a _ => bitZero a) (fun a _ => a >>> 1)) := ⟨rfl, rfl⟩

theorem completes_shl (x y : RegNum) (s : State) :
    Completes (.shl x y) s (s.flagThenResult x y (fun a _ => bitSeven a) (fun a _ => a <<< 1)) := ⟨rfl, rfl⟩

theorem carryOut_iff (a b : Byte) : carryOut a b = true ↔ a.toNat + b.toNat > 255 := decide_eq_true_iff

theorem exceeds_iff (a b : Byte) : exceeds a b = true ↔ a.toNat > b.toNat := decide_eq_true_iff

theorem bitZero_iff (a : Byte) : bitZero a = true ↔ a.toNat % 2 = 1 := by
  rw [bitZero, BitVec.getLsbD, Nat.testBit_zero, decide_eq_true_iff]

theorem bitSeven_iff (a : Byte) : bitSeven a = true ↔ a.toNat ≥ 128 := by
  have := a.isLt
  rw [bitSeven, BitVec.getLsbD, Nat.testBit_eq_decide_div_mod_eq, decide_eq_true_iff]
  omega

theorem byte_sub_toNat (a b : Byte) : (a - b).toNat = (a.toNat + 256 - b.toNat) % 256 := by
  have := b.isLt
  rw [BitVec.toNat_sub]
  congr 1
  omega

theorem byte_shiftRight_one_toNat (a : Byte) : (a >>> 1).toNat = a.toNat / 2 := by
  rw [BitVec.toNat_ushiftRight, Nat.shiftRight_eq_div_pow, Nat.pow_one]

theorem byte_shiftLeft_one_toNat (a : Byte) : (a <<< 1).toNat = 2 * a.toNat % 256 := by
  rw [BitVec.toNat_shiftLeft, Nat.shiftLeft_eq, Nat.pow_one, Nat.mul_comm]

/-- Settles O23: the flag is the carry and the result the 8-bit sum. -/
theorem addSetsCarry : Obligations.AddSetsCarry := fun x y =>
  writesFlagThenResult_of_completes (completes_addReg x y) carryOut_iff BitVec.toNat_add

/-- Settles O24: the flag is the strict comparison and the result the 8-bit difference, in the order of each. -/
theorem subtractionsCompareStrictly : Obligations.SubtractionsCompareStrictly := fun x y =>
  ⟨writesFlagThenResult_of_completes (completes_sub x y) exceeds_iff byte_sub_toNat,
    writesFlagThenResult_of_completes (completes_subn x y) (fun a b => exceeds_iff b a) (fun a b => byte_sub_toNat b a)⟩

/-- Settles O25: the flag is the bit at the end shifted out, and neither byte function looks at Vy. -/
theorem shiftsIgnoreVy : Obligations.ShiftsIgnoreVy := fun x y =>
  ⟨writesFlagThenResult_of_completes (completes_shr x y) (fun a _ => bitZero_iff a)
      (fun a _ => byte_shiftRight_one_toNat a),
    writesFlagThenResult_of_completes (completes_shl x y) (fun a _ => bitSeven_iff a)
      (fun a _ => byte_shiftLeft_one_toNat a)⟩

/-! ### VF as an operand (41_alu.md R84) -/

/-- With x = F the result computed from the new flag is what remains in VF. -/
theorem WritesFlagThenResult.flag_as_first {i : Instr} {y : RegNum} {flag : Nat → Nat → Prop}
    {result : Nat → Nat → Nat} (h : WritesFlagThenResult i 15 y flag result) (s : State)
    [Decidable (flag (s.v 15).toNat (s.v y).toNat)] :
    ∃ t, exec i s = .next t ∧ ∃ f, f = (if flag (s.v 15).toNat (s.v y).toNat then 1 else 0) ∧
      (t.v 15).toNat = result f (if y = 15 then f else (s.v y).toNat) := by
  obtain ⟨t, f, ⟨hexec, -⟩, hset, hclear, hres, -⟩ := h s
  refine ⟨t, hexec, f, ?_, by rwa [if_pos rfl] at hres⟩
  split
  · exact hset ‹_›
  · exact hclear ‹_›

/-- With only y = F the flag stays in VF and is the second operand. -/
theorem WritesFlagThenResult.flag_as_second {i : Instr} {x : RegNum} {flag : Nat → Nat → Prop}
    {result : Nat → Nat → Nat} (h : WritesFlagThenResult i x 15 flag result) (hx : x ≠ 15) (s : State)
    [Decidable (flag (s.v x).toNat (s.v 15).toNat)] :
    ∃ t, exec i s = .next t ∧ (t.v 15).toNat = (if flag (s.v x).toNat (s.v 15).toNat then 1 else 0) ∧
      (t.v x).toNat = result (s.v x).toNat (t.v 15).toNat := by
  obtain ⟨t, f, ⟨hexec, -⟩, hset, hclear, hres, hvf, -⟩ := h s
  refine ⟨t, hexec, ?_, ?_⟩
  · rw [hvf hx]
    split
    · exact hset ‹_›
    · exact hclear ‹_›
  · rwa [if_neg hx, if_pos rfl, ← hvf hx] at hres

/-- Settles O26: each row is its instruction's effect with the flag put in for the operand that is VF. -/
theorem flagAsOperand : Obligations.FlagAsOperand := by
  intro s
  refine ⟨fun y => ?_, fun x hx => ?_⟩
  · obtain ⟨t4, h4, f4, hf4, hr4⟩ := (addSetsCarry 15 y).flag_as_first s
    obtain ⟨t5, h5, f5, hf5, hr5⟩ := (subtractionsCompareStrictly 15 y).1.flag_as_first s
    obtain ⟨t6, h6, f6, hf6, hr6⟩ := (shiftsIgnoreVy 15 y).1.flag_as_first s
    obtain ⟨t7, h7, f7, hf7, hr7⟩ := (subtractionsCompareStrictly 15 y).2.flag_as_first s
    obtain ⟨tE, hE, fE, hfE, hrE⟩ := (shiftsIgnoreVy 15 y).2.flag_as_first s
    refine ⟨t4, t5, t6, t7, tE, h4, h5, h6, h7, hE, fun hy => ?_, fun hy => ?_, ?_, ?_⟩
    · rw [if_neg hy] at hr4 hr5 hr7
      rw [← hf4, ← hf5, ← hf7]
      exact ⟨hr4, hr5, hr7⟩
    · subst hy
      rw [if_pos rfl] at hr4 hr5 hr7
      rw [hr4, hr5, hr7, hf4, two_mul]
      refine ⟨?_, by omega, by omega⟩
      split <;> rfl
    · rw [hr6, hf6]
      split <;> rfl
    · rw [hrE, hfE]
      split <;> rfl
  · obtain ⟨t4, h4, hf4, hr4⟩ := (addSetsCarry x 15).flag_as_second hx s
    obtain ⟨t5, h5, hf5, hr5⟩ := (subtractionsCompareStrictly x 15).1.flag_as_second hx s
    obtain ⟨t7, h7, hf7, hr7⟩ := (subtractionsCompareStrictly x 15).2.flag_as_second hx s
    exact ⟨t4, t5, t7, h4, h5, h7, hf4, hr4, hf5, hr5, hf7, hr7⟩

/-! ### The random byte -/

theorem completes_rnd (x : RegNum) (nn : Byte) (s : State) :
    Completes (.rnd x nn) s (s.consumeDraw.setV x (s.randomByte &&& nn)) := ⟨rfl, rfl⟩

/-- A masked byte has no bit outside the mask. -/
theorem and_and_not_self (b nn : Byte) : b &&& nn &&& ~~~nn = 0 := by
  rw [BitVec.and_assoc, BitVec.and_not_self]
  exact BitVec.and_zero

/-- Settles O27: one draw is consumed, and the masked byte is written to Vx. -/
theorem randomByteIsMasked : Obligations.RandomByteIsMasked := by
  intro x nn s
  obtain ⟨hother, hframe⟩ := s.consumeDraw.setV_frame x (s.randomByte &&& nn)
  refine ⟨_, completes_rnd x nn s, State.v_setV_self _ x _, ?_, hother, rfl, rfl,
    (s.consumeDraw_unchangedExcept.trans hframe).mono (by simp)⟩
  rw [State.v_setV_self]
  exact and_and_not_self s.randomByte nn

/-! ### Glyph addresses, and stores over the next instruction -/

theorem completes_ldF (x : RegNum) (s : State) : Completes (.ldF x) s (s.setIndex (glyphAddress (s.v x))) := ⟨rfl, rfl⟩

/-- 42_index_memory.md R88: the largest glyph address is 0x050 + 5 * 255, so 16 bits hold it. -/
theorem glyphAddress_toNat (b : Byte) : (glyphAddress b).toNat = 0x050 + 5 * b.toNat := by
  have := b.isLt
  rw [glyphAddress, BitVec.toNat_ofNat, Config.fontBase]
  omega

/-- Settles O29: the glyph address never wraps. -/
theorem glyphAddressIsUnmasked : Obligations.GlyphAddressIsUnmasked := fun x =>
  setsIndex_of_completes_setIndex (completes_ldF x) fun s => glyphAddress_toNat (s.v x)

/-- Settles O33: V0 and V1 are read back at the two addresses that the fetch reads. -/
theorem storesAreFetchedNext : Obligations.StoresAreFetchedNext := by
  intro x s hx hpc
  have hlow : (s.pc.toNat + 1) % 4096 = (s.index.toNat + 1) % 4096 := by omega
  have hread := fun (k : RegNum) (hk : k.val ≤ x.val) (a : Nat) =>
    Memory.read_writeBytes_registersUpTo s.memory s hk a s.index.toNat
  refine ⟨_, (completes_stRegs x s).1, rfl, ?_⟩
  simp only [State.fetchWord_toNat, State.setIndex_memory, State.setIndex_pc, State.setMemory_memory,
    State.setMemory_pc]
  rw [hread 0 (Nat.zero_le _) _ hpc.symm, hread 1 hx _ hlow]

end Sys2Proof.Machine
end

section
/-!
PROOFS. The sprite draw (43_display.md), and the keypad instructions (44_timer_key.md).
-/

namespace Sys2Proof.Machine

/-! ### The sprite mask -/

theorem completes_drw (x y : RegNum) (n : Imm4) (s : State) :
    Completes (.drw x y n) s ((s.show (s.blit x y n).1).setFlag (s.blit x y n).2) := ⟨rfl, rfl⟩

theorem spriteBit_iff (b : Byte) (col : Nat) : spriteBit b col = true ↔ b.toNat / 2 ^ (7 - col) % 2 = 1 := by
  rw [spriteBit, BitVec.getLsbD, Nat.testBit_eq_decide_div_mod_eq, decide_eq_true_iff]

/-- The pixels the blitter visits are those the sprite covers. -/
theorem mem_spritePixels_iff_covers (s : State) (x y : RegNum) (n : Imm4) (px : Fin 64) (py : Fin 32) :
    (px, py) ∈ spritePixels s.memory s.index (s.v x) (s.v y) n.toNat ↔ SpriteCovers s x y n px py := by
  simp only [mem_spritePixels, SpriteCovers, spriteBit_iff, Prod.mk.injEq, Fin.ext_iff, pixelColumn, pixelRow,
    Fin.val_ofNat]

theorem nodup_blitted (s : State) (x y : RegNum) (n : Imm4) :
    (spritePixels s.memory s.index (s.v x) (s.v y) n.toNat).Nodup :=
  nodup_spritePixels _ _ _ _ _ (by have := n.isLt; omega)

/-- R95: the blit inverts the covered pixels. -/
theorem State.pixel_blit (s : State) (x y : RegNum) (n : Imm4) (px : Fin 64) (py : Fin 32)
    [Decidable (SpriteCovers s x y n px py)] :
    (s.blit x y n).1.pixel px py = (s.framebuffer.pixel px py ^^ decide (SpriteCovers s x y n px py)) := by
  rw [State.blit, blitPixel_foldl_fst, Framebuffer.pixel_foldl_flip _ (nodup_blitted s x y n)]
  simp only [mem_spritePixels_iff_covers]

/-- R95: the collision bit says whether a covered pixel was on. -/
theorem State.collision_blit (s : State) (x y : RegNum) (n : Imm4) :
    (s.blit x y n).2 = true ↔ ∃ px py, SpriteCovers s x y n px py ∧ s.framebuffer.pixel px py = true := by
  rw [State.blit, blitPixel_foldl_snd _ (nodup_blitted s x y n), Bool.false_or, List.any_eq_true]
  simp only [Prod.exists, mem_spritePixels_iff_covers]

/-- Settles O35: the blit is XOR with the sprite mask, and VF is written last with its collision bit. -/
theorem drawXorsTheSpriteMask : Obligations.DrawXorsTheSpriteMask := by
  classical
  intro x y n s
  have hcollision := s.collision_blit x y n
  refine ⟨_, completes_drw x y n s, fun px py h => ?_, fun px py h => ?_, fun h => ?_, fun h => ?_,
    fun r hr => ?_, rfl, (s.show_unchangedExcept _).trans (State.setV_unchangedExcept _ vf _)⟩
  · rw [State.setFlag_framebuffer, State.show_framebuffer, State.pixel_blit, decide_eq_true h, Bool.xor_true]
  · rw [State.setFlag_framebuffer, State.show_framebuffer, State.pixel_blit, decide_eq_false h, Bool.xor_false]
  · rw [State.v_setFlag, if_pos rfl, hcollision.mpr h]
    rfl
  · have hclear : (s.blit x y n).2 = false := by
      rw [Bool.eq_false_iff, Ne, hcollision]
      rintro ⟨px, py, hcovers, hon⟩
      simp [h px py hcovers] at hon
    rw [State.v_setFlag, if_pos rfl, hclear]
    rfl
  · rw [State.v_setFlag, if_neg hr]
    rfl

/-- A sprite covers the same pixels in states with the same memory, I, Vx and Vy. -/
theorem spriteCovers_congr {s t : State} {x y : RegNum} (hmem : Element.memory.same s t) (hindex : t.index = s.index)
    (hx : t.v x = s.v x) (hy : t.v y = s.v y) (n : Imm4) (px : Fin 64) (py : Fin 32) :
    SpriteCovers t x y n px py ↔ SpriteCovers s x y n px py := by
  have hread : ∀ a, Memory.read t.memory a = Memory.read s.memory a := hmem
  simp only [SpriteCovers, hread, hindex, hx, hy]

/-- Settles O36: with x and y not F the second draw has the mask of the first, and finds it on if the area was clear. -/
theorem drawingTwiceRestores : Obligations.DrawingTwiceRestores := by
  intro x y n s hx hy
  obtain ⟨t, ⟨ht, -⟩, hton, htoff, -, htclear, htv, -, htframe⟩ := drawXorsTheSpriteMask x y n s
  obtain ⟨u, ⟨hu, -⟩, huon, huoff, hucollide, -⟩ := drawXorsTheSpriteMask x y n t
  have hcovers := spriteCovers_congr (htframe .memory (by decide)) (htframe .index (by decide)) (htv x hx) (htv y hy) n
  refine ⟨t, u, ht, hu, fun px py => ?_, fun hclear => ?_⟩
  · by_cases h : SpriteCovers s x y n px py
    · rw [huon px py ((hcovers px py).mpr h), hton px py h, Bool.not_not]
    · rw [huoff px py (mt (hcovers px py).mp h), htoff px py h]
  · rintro ⟨px, py, h⟩
    refine ⟨htclear hclear, hucollide ⟨px, py, (hcovers px py).mpr h, ?_⟩⟩
    rw [hton px py h, hclear px py h]
    rfl

/-! ### Keys -/

theorem completes_skp (x : RegNum) (s : State) : Completes (.skp x) s (s.skipIf (s.keyPressed (s.v x))) := ⟨rfl, rfl⟩

theorem completes_sknp (x : RegNum) (s : State) : Completes (.sknp x) s (s.skipIf (!s.keyPressed (s.v x))) := ⟨rfl, rfl⟩

theorem State.keyHeld_of_key (s : State) (k : Fin 16) : s.keyHeld k.val = s.keys[k.val] := dif_pos k.isLt

/-- 44_timer_key.md R103: a number is a held key's, or no key's. -/
theorem State.keyHeld_iff (s : State) (v : Nat) :
    s.keyHeld v = true ↔ ∃ k : Fin 16, v = k.val ∧ s.keys[k.val] = true := by
  constructor
  · intro h
    by_cases hv : v < 16
    · exact ⟨⟨v, hv⟩, rfl, s.keyHeld_of_key ⟨v, hv⟩ ▸ h⟩
    · rw [State.keyHeld, dif_neg hv] at h
      cases h
  · rintro ⟨k, rfl, hk⟩
    exact (s.keyHeld_of_key k).trans hk

/-- Settles O37: the tests are the latch at Vx, and its negation. -/
theorem keySkipsReadTheLatch : Obligations.KeySkipsReadTheLatch := fun x =>
  ⟨skips_of_completes_skipIf (completes_skp x) fun s => s.keyHeld_iff (s.v x).toNat,
    skips_of_completes_skipIf (completes_sknp x) fun s => by
      rw [Bool.not_eq_true', ← Bool.not_eq_true]
      exact not_congr (s.keyHeld_iff (s.v x).toNat)⟩

theorem completes_ldVxK {x : RegNum} {s t : State} (h : nextState (.ldVxK x) s = t) : Completes (.ldVxK x) s t :=
  ⟨h ▸ exec_eq_next (.ldVxK x) s, rfl⟩

/-- Settles O38: the key scan answers the least held key, or none. -/
theorem keyWaitTakesLeastHeldKey : Obligations.KeyWaitTakesLeastHeldKey := by
  intro x s
  refine ⟨fun k hk hleast => ?_, fun hnone => ?_⟩
  · have hscan : s.leastKey = some k.val := (s.leastKey_eq_some k.val).mpr
      ⟨(s.keyHeld_of_key k).trans hk, fun j hj =>
        (s.keyHeld_of_key ⟨j, hj.trans k.isLt⟩).trans (hleast ⟨j, hj.trans k.isLt⟩ hj)⟩
    obtain ⟨j, hj, hnext⟩ | ⟨hno, -⟩ := nextState_ldVxK_cases x s
    · obtain rfl : k.val = j := Option.some.inj (hscan.symm.trans hj)
      refine ⟨_, completes_ldVxK hnext, ?_, s.setV_frame x _⟩
      rw [State.v_setV_self, BitVec.toNat_ofNat]
      omega
    · rw [hscan] at hno
      cases hno
  · have hscan : s.leastKey = none := s.leastKey_eq_none.mpr fun j =>
      Bool.eq_false_iff.mpr fun hj => by
        obtain ⟨k, -, hk⟩ := (s.keyHeld_iff j).mp hj
        simp [hnone k] at hk
    obtain ⟨j, hj, -⟩ | ⟨-, hnext⟩ := nextState_ldVxK_cases x s
    · rw [hscan] at hj
      cases hj
    · exact ⟨_, completes_ldVxK hnext, rfl, s.setPc_unchangedExcept _⟩

end Sys2Proof.Machine
end

section
/-!
PROOFS. Reset, ROM load, state load and the small host operations (45_host_operations.md, 70_reset_and_hazards.md).
-/

namespace Sys2Proof.Machine

/-! ### Ticks, run control, reads -/

/-- Settles O54: both cases of the tick. -/
theorem tickCountsDown : Obligations.TickCountsDown := by
  intro s
  refine ⟨fun hr => ⟨s.tick, rfl, ?_, ?_, s.tick_unchangedExcept⟩,
    fun hr => congrArg Host.Outcome.next (State.tick_of_halted hr)⟩
  all_goals
    obtain ⟨-, h⟩ | ⟨hhalted, -⟩ := s.tick_cases
    · rw [h]
      exact countDown_toNat _
    · rw [hr] at hhalted
      cases hhalted

/-- Settles O57: each operation is one write of `running`. -/
theorem runControlOperations : Obligations.RunControlOperations := fun s =>
  ⟨s.setRunning false, s.resume, rfl, rfl, rfl, rfl, rfl, s.setRunning_unchangedExcept false,
    s.setRunning_unchangedExcept true⟩

theorem State.clearChanged_of_clear {s : State} (h : s.changed = false) : s.clearChanged = s := by
  rw [State.clearChanged, ← h]

/-- Settles O58: where `changed` is clear already, clearing it is no change, so both operations end in one state. -/
theorem framebufferReadOut : Obligations.FramebufferReadOut := by
  intro s
  have htake : operate .takeChangedFramebuffer s = .next s.clearChanged := by
    cases h : s.changed with
    | true => exact congrArg Host.Outcome.next (if_pos h)
    | false =>
      exact congrArg Host.Outcome.next ((if_neg (by simp [h])).trans (State.clearChanged_of_clear h).symm)
  refine ⟨s.clearChanged, rfl, htake, rfl, s.clearChanged_unchangedExcept, fun h => ?_, fun h => ?_, rfl, rfl⟩
  · exact congrArg Response.taken (if_pos h)
  · exact ⟨congrArg Response.taken (if_neg (by simp [h])), State.clearChanged_of_clear h⟩

/-- 45_host_operations.md R117: the output is on exactly when ST is not 0. -/
theorem State.soundActive_iff (s : State) : s.soundActive = true ↔ s.soundTimer.toNat ≠ 0 := by
  rw [State.soundActive, bne_iff_ne, Ne, BitVec.toNat_eq]
  rfl

/-- Settles O59: a read hands out the element as it is; for the sound output that is a comparison of ST with 0. -/
theorem readAccessorsOnlyRead : Obligations.ReadAccessorsOnlyRead := by
  intro s
  refine ⟨fun _ => rfl, rfl, rfl, rfl, rfl, rfl, rfl, rfl, rfl, rfl, rfl, rfl, rfl, fun h => ?_, fun h => ?_⟩
  · exact congrArg Response.bit (s.soundActive_iff.mpr h)
  · exact congrArg Response.bit (Bool.eq_false_iff.mpr fun hon => s.soundActive_iff.mp hon h)

/-! ### Reset -/

theorem State.resetOp_unchangedExcept (s : State) (seed : Nat) :
    UnchangedExcept [.breakpoints, .rng] State.reset (s.resetOp seed) := by
  intro e he
  have hs := e.same_refl State.reset
  cases e with
  | breakpoints | rng => simp at he
  | _ => exact hs

/-- Outside the font the reset memory is zero. -/
theorem read_reset_memory_of_not_font {a : Nat} (ha : a < 4096) (h : a < 0x050 ∨ 0x09F < a) :
    Memory.read State.reset.memory a = 0 := by
  rw [Memory.read_eq_lookup_mod, Nat.mod_eq_of_lt ha]
  exact if_neg (by simp only [Config.fontBase, Config.fontBytes]; omega)

theorem v_reset (r : RegNum) : State.reset.v r = 0 := Vector.getElem_replicate _

theorem keyHeld_reset (k : Nat) : State.reset.keyHeld k = false := by
  unfold State.keyHeld
  split
  · exact Vector.getElem_replicate _
  · rfl

/-- Settles O51: reset ends in the power-on state but for the breakpoints and the random source. -/
theorem resetLeavesTheBootState : Obligations.ResetLeavesTheBootState := by
  intro seed s
  refine ⟨s.resetOp seed, rfl, ?_, fun a => read_reset_memory_of_not_font, v_reset, rfl, rfl,
    fun k => Vector.getElem_replicate _, rfl, rfl, rfl, Framebuffer.pixel_clear, rfl,
    fun k => Vector.getElem_replicate _, rfl, rfl, rfl, rfl, s.resetOp_unchangedExcept seed⟩
  show (List.range 80).map (fun k => (Memory.read State.reset.memory (0x050 + k)).toNat) = _
  decide

/-! ### ROM load -/

theorem State.loadRom_of_fits (s : State) {rom : List Byte} (h : rom.length ≤ 3584) :
    s.loadRom rom = (s.setMemory (Memory.writeBytes s.memory 0x200 rom)).setRunning true :=
  if_pos ((romFits_iff rom).mpr h)

/-- R146: the ROM's bytes are read back from 0x200 upward. -/
theorem State.read_loadRom (s : State) {rom : List Byte} (h : rom.length ≤ 3584) (k : Nat) (hk : k < rom.length) :
    Memory.read (s.loadRom rom).memory (0x200 + k) = rom[k] := by
  rw [s.loadRom_of_fits h]
  exact Memory.read_writeBytes rom s.memory 0x200 _ k hk (by omega) rfl

/-- R146: the bytes below 0x200 and past the ROM's end are as before. -/
theorem State.read_loadRom_other (s : State) {rom : List Byte} (h : rom.length ≤ 3584) {a : Nat} (ha : a < 4096)
    (hout : a < 0x200 ∨ 0x200 + rom.length ≤ a) :
    Memory.read (s.loadRom rom).memory a = Memory.read s.memory a := by
  rw [s.loadRom_of_fits h]
  exact Memory.read_writeBytes_other rom s.memory 0x200 a fun k hk => by omega

/-- Settles O52: both cases of the load. -/
theorem loadRomCopiesOrRejects : Obligations.LoadRomCopiesOrRejects := by
  intro rom s
  refine ⟨fun h => ⟨s.loadRom rom, rfl, if_pos ((romFits_iff rom).mpr h), s.read_loadRom h,
    fun a => s.read_loadRom_other h, ?_, s.loadRom_unchangedExcept rom⟩, fun h => ?_⟩
  · rw [s.loadRom_of_fits h, State.setRunning_running]
  · have hfits : ¬romFits rom = true := mt (romFits_iff rom).mp (by omega)
    exact ⟨congrArg Host.Outcome.next (if_neg hfits), if_neg hfits⟩

/-- Settles O53: the load adds the ROM and `running` to what reset leaves. -/
theorem bootSequence : Obligations.BootSequence := by
  intro seed rom s h
  have hframe := (s.resetOp seed).loadRom_unchangedExcept rom
  have hload := (s.resetOp seed).loadRom_of_fits h
  refine ⟨(s.resetOp seed).loadRom rom, rfl, ?_, hframe .pc (by decide), hframe .sp (by decide),
    hframe .fault (by decide), fun r => (hframe .registers (by decide) r).trans (v_reset r), hframe .index (by decide),
    hframe .delayTimer (by decide), hframe .soundTimer (by decide),
    fun px py => (hframe .framebuffer (by decide) px py).trans (Framebuffer.pixel_clear px py),
    fun k => (hframe .keys (by decide) k).trans (keyHeld_reset k), ?_, State.read_loadRom _ h,
    fun a => State.read_loadRom_other _ h⟩
  all_goals rw [hload]
  · rfl
  · rfl

/-! ### State load -/

/-- A list read with a default other than 1 gives 1 exactly where it holds 1. -/
theorem getD_zero_eq_one_iff (l : List Nat) (i : Nat) : l.getD i 0 = 1 ↔ l[i]? = some 1 := by
  rw [List.getD_eq_getElem?_getD]
  cases l[i]? <;> simp

/-- The byte at each address of a loaded memory. -/
theorem State.read_load_memory (s : State) {p : Snapshot} (hp : p.memory.length = 4096) (a : Nat)
    (ha : a < p.memory.length) : Memory.read (s.load p).memory a = p.memory[a] := by
  rw [State.load_memory]
  exact Memory.read_writeBytes p.memory [] 0 a a ha hp.le (by rw [Nat.zero_add])

theorem State.load_sp_val (s : State) {p : Snapshot} (hp : p.sp ≤ 16) : (s.load p).sp.val = p.sp := by
  rw [State.load_sp]
  exact Nat.mod_eq_of_lt (Nat.lt_succ_of_le hp)

theorem State.load_pixel_iff (s : State) (p : Snapshot) (px : Fin 64) (py : Fin 32) :
    (s.load p).framebuffer.pixel px py = true ↔ p.pixels[py.val * 64 + px.val]? = some 1 := by
  rw [State.load_framebuffer, pixel_framebufferOf, getD_zero_eq_one_iff]

theorem State.load_key_iff (s : State) (p : Snapshot) (k : Fin 16) :
    (s.load p).keys[k.val] = true ↔ p.keys[k.val]? = some 1 := by
  simp only [State.load_keys, Vector.getElem_ofFn, beq_iff_eq, getD_zero_eq_one_iff]

theorem State.mem_load_breakpoints (s : State) (p : Snapshot) (a : Word) :
    a ∈ (s.load p).breakpoints ↔ a ∈ p.breakpoints := by
  rw [State.load_breakpoints, Breakpoints.mem_foldl_add, or_iff_left List.not_mem_nil]

/-- Settles O60: the guard is the snapshot's validity, and each element of the loaded state is the snapshot's. -/
theorem stateLoadIsAllOrNothing : Obligations.StateLoadIsAllOrNothing := by
  intro p s
  refine ⟨fun hp => ⟨congrArg Host.Outcome.next (if_neg hp), if_neg hp⟩, fun hp => ?_⟩
  obtain ⟨hmem, hsp, -, -⟩ := id hp
  exact ⟨s.load p, congrArg Host.Outcome.next (if_pos hp), if_pos hp, s.read_load_memory hmem,
    s.load_registers p, s.load_index p, s.load_pc p, s.load_stack p, s.load_sp_val hsp, s.load_delayTimer p,
    s.load_soundTimer p, s.load_pixel_iff p, s.load_changed p, s.load_key_iff p, s.mem_load_breakpoints p,
    s.load_running p, congrArg Rng.seed (s.load_rng p), s.load_fault p⟩

end Sys2Proof.Machine
end
